-- ==== Sys2Proof/Word.lean ====
section
/-! DEFINITION. The word types of the AddressCodec block: bytes, the 16-bit checksum register, the command word and
the response word (spec/00_scope.md R7, R8). -/

namespace Sys2Proof

/-- One cell of `B` or `T`, one operand field, one register of 8 bits (R7 `CELL_WIDTH`). -/
abbrev Byte := BitVec 8

/-- The checksum register and one entry of the checksum table (R7 `CRC_WIDTH`). -/
abbrev Crc16 := BitVec 16

/-- A command word (R70, R7 `CMD_WIDTH`). -/
abbrev CommandWord := BitVec 24

/-- A response word (R73, R7 `RESP_WIDTH`). -/
abbrev ResponseWord := BitVec 16

/-- A group of six bits, the value of one base64url character (R13). -/
abbrev Sextet := BitVec 6

/-- The 36 bytes of a frame (R7 `FRAME_LEN`, R33). -/
abbrev FrameBytes := Vector Byte 36

/-- The 48 character cells of a text (R7 `TEXT_LEN`, R34). -/
abbrev TextCells := Vector Byte 48

end Sys2Proof
end

