-- ==== Sys2Proof/Syntax.lean ====
section
/-! DEFINITION. The 23 commands of ACX-1 with their operands (spec/30_encoding.md R76, spec/opcode_table.json). A
field that a command's format does not use is no operand: it must be zero in the word (R79) and does not occur here. -/

namespace Sys2Proof

/-- A command of the block; one constructor per row of the opcode table. `idx` and `dat` are the 8-bit operand fields
as they stand in the word (R75). -/
inductive Instr where
  /-- WRB: write one frame byte (R101). -/
  | wrb (idx dat : Byte)
  /-- RDB: read one frame byte (R102). -/
  | rdb (idx : Byte)
  /-- WRT: write one text cell (R103). -/
  | wrt (idx dat : Byte)
  /-- RDT: read one text cell (R104). -/
  | rdt (idx : Byte)
  /-- WRLEN: write the text length (R105). -/
  | wrlen (dat : Byte)
  /-- RDLEN: read the text length (R107). -/
  | rdlen
  /-- WRFLAGS: write the flag register (R106). -/
  | wrflags (dat : Byte)
  /-- RDFLAGS: read the flag register (R108). -/
  | rdflags
  /-- RDSTATUS: read the recorded status (R109). -/
  | rdstatus
  /-- RDCRCH: read the high half of the checksum register (R110). -/
  | rdcrch
  /-- RDCRCL: read the low half of the checksum register (R111). -/
  | rdcrcl
  /-- RDTABH: read the high half of a table entry (R112). -/
  | rdtabh (idx : Byte)
  /-- RDTABL: read the low half of a table entry (R113). -/
  | rdtabl (idx : Byte)
  /-- CRCINIT: start a checksum (R127). -/
  | crcinit
  /-- CRCBYTE: advance the checksum by one byte (R128). -/
  | crcbyte (dat : Byte)
  /-- CKGEN: compute and append the frame checksum (R130). -/
  | ckgen
  /-- CKCHK: recompute and compare the frame checksum (R131). -/
  | ckchk
  /-- B64ENC: encode the frame buffer into the text buffer (R148). -/
  | b64enc
  /-- B64DEC: decode the text buffer into the frame buffer (R150). -/
  | b64dec
  /-- TAGPACK: build the tag byte from the flag register (R169). -/
  | tagpack
  /-- TAGUNPACK: recover the flags from the tag byte (R170). -/
  | tagunpack
  /-- ENCODE: flags, workchain byte and hash to text (R181). -/
  | encode
  /-- DECODE: text to flags, workchain byte and hash (R183). -/
  | decode
  deriving DecidableEq, Repr

end Sys2Proof
end

