-- ==== Sys2Proof/WellFormed.lean ====
section
/-! DEFINITION. The operand constraints of the opcode table (spec/30_encoding.md R76, R80 items c and d). -/

namespace Sys2Proof

/-- The instruction's operands meet the "extra constraint" column of R76: an index of `B` is at most 35, an index of
`T` at most 47, the operand of WRFLAGS at most 3; no other command constrains its operands. -/
def Instr.wf : Instr → Bool
  | .wrb idx _ => decide (idx.toNat ≤ 35)
  | .rdb idx => decide (idx.toNat ≤ 35)
  | .wrt idx _ => decide (idx.toNat ≤ 47)
  | .rdt idx => decide (idx.toNat ≤ 47)
  | .wrlen _ => true
  | .rdlen => true
  | .wrflags dat => decide (dat.toNat ≤ 3)
  | .rdflags => true
  | .rdstatus => true
  | .rdcrch => true
  | .rdcrcl => true
  | .rdtabh _ => true
  | .rdtabl _ => true
  | .crcinit => true
  | .crcbyte _ => true
  | .ckgen => true
  | .ckchk => true
  | .b64enc => true
  | .b64dec => true
  | .tagpack => true
  | .tagunpack => true
  | .encode => true
  | .decode => true

end Sys2Proof
end

