-- ==== Sys2Proof/Decode.lean ====
section
/-! DEFINITION. Decoding a 24-bit command word (spec/30_encoding.md R70 to R72, R76, R79, R80), the encoder written
from the same table, and the opcode table's match and mask columns. Decoding is total and reads no state (R72). -/

namespace Sys2Proof

/-- Why a word is illegal: the four items of R80. The block itself records no reason (R210): all have one effect. -/
inductive IllegalReason where
  /-- Item (a): `op` is none of the 23 assigned values. -/
  | unassignedOpcode
  /-- Item (b): a field the format does not use is nonzero (R79). -/
  | reservedFieldNonzero
  /-- Item (c): the index lies outside its buffer (R57). -/
  | indexOutOfRange
  /-- Item (d): WRFLAGS with any of `dat[7:2]` set (R106). -/
  | flagsOperandOutOfRange
  deriving DecidableEq, Repr

/-- What a word decodes to (R72). -/
inductive Decoded where
  | legal (i : Instr)
  | illegal (r : IllegalReason)
  deriving DecidableEq, Repr

/-- `W[23:16]`, the opcode (R70). -/
def opField (w : CommandWord) : Byte := w.extractLsb' 16 8

/-- `W[15:8]`, the index operand (R70). -/
def idxField (w : CommandWord) : Byte := w.extractLsb' 8 8

/-- `W[7:0]`, the data operand (R70). -/
def datField (w : CommandWord) : Byte := w.extractLsb' 0 8

/-- The word with the given three fields (R70). -/
def mkWord (op idx dat : Byte) : CommandWord := (op ++ idx : BitVec 16) ++ dat

/-- Decoding after the opcode is known, for a format that reserves the fields `reserved` says are nonzero, with the
row's extra constraint: reserved fields first, then the constraint (R72). -/
def decodeRow (reserved : Bool) (constraint : Bool) (r : IllegalReason) (i : Instr) : Decoded :=
  if reserved then .illegal .reservedFieldNonzero
  else if constraint then .legal i
  else .illegal r

/-- Format N: both operand fields must be 0 (R71). -/
def decodeN (w : CommandWord) (i : Instr) : Decoded :=
  decodeRow (idxField w != 0 || datField w != 0) true .reservedFieldNonzero i

/-- Format I: the index is used, `dat` must be 0 (R71); `limit` is the number of cells of the index space (R50). -/
def decodeI (w : CommandWord) (limit : Nat) (i : Byte → Instr) : Decoded :=
  decodeRow (datField w != 0) (decide ((idxField w).toNat < limit)) .indexOutOfRange (i (idxField w))

/-- Format D: the data byte is used, `idx` must be 0 (R71); `limit` bounds the operand (256: every byte). -/
def decodeD (w : CommandWord) (limit : Nat) (i : Byte → Instr) : Decoded :=
  decodeRow (idxField w != 0) (decide ((datField w).toNat < limit)) .flagsOperandOutOfRange (i (datField w))

/-- Format X: both fields are used (R71); `limit` is the number of cells of the index space. -/
def decodeX (w : CommandWord) (limit : Nat) (i : Byte → Byte → Instr) : Decoded :=
  decodeRow false (decide ((idxField w).toNat < limit)) .indexOutOfRange (i (idxField w) (datField w))

/-- Decoding of a command word (R72), by the opcode map of R76. -/
def decodeWord (w : CommandWord) : Decoded :=
  match (opField w).toNat with
  | 0x01 => decodeX w 36 .wrb
  | 0x02 => decodeI w 36 .rdb
  | 0x03 => decodeX w 48 .wrt
  | 0x04 => decodeI w 48 .rdt
  | 0x05 => decodeD w 256 .wrlen
  | 0x06 => decodeN w .rdlen
  | 0x07 => decodeD w 4 .wrflags
  | 0x08 => decodeN w .rdflags
  | 0x09 => decodeN w .rdstatus
  | 0x0A => decodeN w .rdcrch
  | 0x0B => decodeN w .rdcrcl
  | 0x0C => decodeI w 256 .rdtabh
  | 0x0D => decodeI w 256 .rdtabl
  | 0x10 => decodeN w .crcinit
  | 0x11 => decodeD w 256 .crcbyte
  | 0x12 => decodeN w .ckgen
  | 0x13 => decodeN w .ckchk
  | 0x20 => decodeN w .b64enc
  | 0x21 => decodeN w .b64dec
  | 0x30 => decodeN w .tagpack
  | 0x31 => decodeN w .tagunpack
  | 0x40 => decodeN w .encode
  | 0x41 => decodeN w .decode
  | _ => .illegal .unassignedOpcode

/-- The word is illegal (R80). -/
def isIllegal (w : CommandWord) : Bool :=
  match decodeWord w with
  | .legal _ => false
  | .illegal _ => true

/-- The word of a command (R70, R76): its opcode, its operands, zeros in the reserved fields (R79). For an instruction
that is not well formed it is the illegal word with those fields. -/
def encode : Instr → CommandWord
  | .wrb idx dat => mkWord 0x01 idx dat
  | .rdb idx => mkWord 0x02 idx 0
  | .wrt idx dat => mkWord 0x03 idx dat
  | .rdt idx => mkWord 0x04 idx 0
  | .wrlen dat => mkWord 0x05 0 dat
  | .rdlen => mkWord 0x06 0 0
  | .wrflags dat => mkWord 0x07 0 dat
  | .rdflags => mkWord 0x08 0 0
  | .rdstatus => mkWord 0x09 0 0
  | .rdcrch => mkWord 0x0A 0 0
  | .rdcrcl => mkWord 0x0B 0 0
  | .rdtabh idx => mkWord 0x0C idx 0
  | .rdtabl idx => mkWord 0x0D idx 0
  | .crcinit => mkWord 0x10 0 0
  | .crcbyte dat => mkWord 0x11 0 dat
  | .ckgen => mkWord 0x12 0 0
  | .ckchk => mkWord 0x13 0 0
  | .b64enc => mkWord 0x20 0 0
  | .b64dec => mkWord 0x21 0 0
  | .tagpack => mkWord 0x30 0 0
  | .tagunpack => mkWord 0x31 0 0
  | .encode => mkWord 0x40 0 0
  | .decode => mkWord 0x41 0 0

/-- The match and mask columns of R76 for the instruction's row, numbers as printed there: a word selects the row when
`w &&& mask = match`. -/
def matchMask : Instr → CommandWord × CommandWord
  | .wrb _ _ => (0x010000, 0xFF0000)
  | .rdb _ => (0x020000, 0xFF00FF)
  | .wrt _ _ => (0x030000, 0xFF0000)
  | .rdt _ => (0x040000, 0xFF00FF)
  | .wrlen _ => (0x050000, 0xFFFF00)
  | .rdlen => (0x060000, 0xFFFFFF)
  | .wrflags _ => (0x070000, 0xFFFF00)
  | .rdflags => (0x080000, 0xFFFFFF)
  | .rdstatus => (0x090000, 0xFFFFFF)
  | .rdcrch => (0x0A0000, 0xFFFFFF)
  | .rdcrcl => (0x0B0000, 0xFFFFFF)
  | .rdtabh _ => (0x0C0000, 0xFF00FF)
  | .rdtabl _ => (0x0D0000, 0xFF00FF)
  | .crcinit => (0x100000, 0xFFFFFF)
  | .crcbyte _ => (0x110000, 0xFFFF00)
  | .ckgen => (0x120000, 0xFFFFFF)
  | .ckchk => (0x130000, 0xFFFFFF)
  | .b64enc => (0x200000, 0xFFFFFF)
  | .b64dec => (0x210000, 0xFFFFFF)
  | .tagpack => (0x300000, 0xFFFFFF)
  | .tagunpack => (0x310000, 0xFFFFFF)
  | .encode => (0x400000, 0xFFFFFF)
  | .decode => (0x410000, 0xFFFFFF)

/-- The command word whose bits are `w`, numbered as the opcode table numbers them, every bit from `nbits` up zero
(log entry 13). A command is one 24-bit word and no other length exists (R78). -/
def tableWord (nbits w : Nat) : CommandWord := BitVec.ofNat 24 (w % 2 ^ nbits)

/-- The instruction the decoder reads from a table word; none where it refuses the word, or where the word would be
longer than a command (R78). -/
def decodeTableWord (nbits w : Nat) : Option Instr :=
  if nbits ≤ 24 then
    match decodeWord (tableWord nbits w) with
    | .legal i => some i
    | .illegal _ => none
  else none

end Sys2Proof
end

