-- ==== Sys2Proof/Config.lean ====
section
/-! DEFINITION. The parameters spec/00_scope.md R7 leaves OPEN: the form of the generator, the duration of a command,
and the values the buffer cells hold after a reset. Those that are values are opaque constants: nothing in Lean can
say what they are, so whatever is proved holds for every one of them. -/

namespace Sys2Proof

/-- `CRC_IMPL` (R7, D25): the two forms of the generator, which compute the same function (R126). -/
inductive CrcImpl where
  | table
  | bitserial
  deriving DecidableEq, Repr

/-- `B_RESET` (R7, R37, U1): the value cell `i` of the frame buffer holds after reset number `n`. A FREE VALUE
(log entry 4): unspecified, stable, may differ from cell to cell and from reset to reset. -/
opaque Config.bReset (n : Nat) (i : Fin 36) : Byte

/-- `T_RESET` (R7, R37, U2): the value cell `i` of the text buffer holds after reset number `n`. A FREE VALUE
(log entry 4). -/
opaque Config.tReset (n : Nat) (i : Fin 48) : Byte

/-- `LATENCY(cmd)` (R7, R243, U5): how many time units a block of the given form takes from accepting the word to its
response. It depends on the word and the form only, and is finite since it is a `Nat`. No rule reads it and neither
does the model (log entry 7). -/
opaque Config.latency (impl : CrcImpl) (w : CommandWord) : Nat

end Sys2Proof
end

