-- ==== Sys2Proof/Machine/State.lean ====
section
/-! DEFINITION. The state of the block (spec/10_state.md R20) with the model's own port fields, the reasons a step
could stop, and the state after reset (R36, R37). -/

namespace Sys2Proof.Machine

/-- What the host does at the port: present a command word (spec/00_scope.md R12), or reset the block between two
commands (spec/70_reset_and_hazards.md R230). Log entry 1. -/
inductive PortEvent where
  | command (w : CommandWord)
  | reset
  deriving DecidableEq, Repr

/-- The block. `B` to `STATUS` are the complete state of R20; the last three fields are the model's own and no
command's result depends on them (R35, log entries 1, 3 and 5). -/
structure State where
  /-- The frame buffer, 36 cells (R33). -/
  B : Vector Byte 36
  /-- The text buffer, 48 cells (R34). -/
  T : Vector Byte 48
  /-- The text length register (R23). -/
  TLEN : Byte
  /-- The flag register: bit 0 `BNC`, bit 1 `TST`, bits 7:2 hardwired 0 (R24). -/
  FLAGS : Byte
  /-- The checksum register (R22). -/
  CRC : Crc16
  /-- The recorded status (R28). -/
  STATUS : Byte
  /-- MODEL'S OWN: what the host presents from here on, oldest first (R12, R62). -/
  inputs : List PortEvent
  /-- MODEL'S OWN: the response words given so far, oldest first (R73). -/
  responses : List ResponseWord
  /-- MODEL'S OWN: how many reset events have passed; numbers the free values of R37. -/
  resets : Nat
  deriving DecidableEq, Repr

/-- The block has no fault: every error is a status in a response, after which the block goes on (R219, R220), and
nothing in it is stuck (spec/93_implementation_defined.md, end of part 1). Nobody raises one; log entry 10. -/
inductive Fault where
  deriving DecidableEq, Repr

/-- The reasons `exec` may reject an instruction. -/
inductive Refusal where
  /-- The instruction has no meaning yet. Raised by `exec`'s rejected arms only, of which there is none (safe). -/
  | notModelled (mnemonic : String)
  deriving DecidableEq, Repr

/-- The frame buffer after reset number `n`: unspecified, stable (R37). -/
def resetFrame (n : Nat) : Vector Byte 36 := Vector.ofFn (Config.bReset n)

/-- The text buffer after reset number `n`: unspecified, stable (R37). -/
def resetText (n : Nat) : Vector Byte 48 := Vector.ofFn (Config.tReset n)

/-- The block right after its first reset (R36, R37), with nothing presented and nothing answered (log entry 2). -/
def State.reset : State where
  B := resetFrame 0
  T := resetText 0
  TLEN := 0x00
  FLAGS := 0x00
  CRC := 0x0000
  STATUS := 0x00
  inputs := []
  responses := []
  resets := 0

end Sys2Proof.Machine
end

