-- ==== Sys2Proof/Machine/Flags.lean ====
section
/-! DEFINITION. The status codes (spec/10_state.md R28, spec/60_exceptions.md R210), the response word (R73), and the
bits of the flag register (R24). -/

namespace Sys2Proof.Machine

/-- The five statuses (R28, R210); no other is ever produced. -/
inductive Status where
  | ok
  | errFormat
  | errChecksum
  | errTag
  | errIllegal
  deriving DecidableEq, Repr

/-- The status codes (R28, R210). -/
def Status.code : Status → Byte
  | .ok => 0x00
  | .errFormat => 0x01
  | .errChecksum => 0x02
  | .errTag => 0x03
  | .errIllegal => 0x04

/-- The response word `{st, data}` (R73). -/
def responseWord (st : Status) (data : Byte) : ResponseWord := st.code ++ data

/-- `P[15:8]`, the status of a response word (R73). -/
def responseStatus (p : ResponseWord) : Byte := p.extractLsb' 8 8

/-- `P[7:0]`, the data of a response word (R73). -/
def responseData (p : ResponseWord) : Byte := p.extractLsb' 0 8

/-- The flag register with `BNC` and `TST` as given: `{0b000000, tst, bnc}` (R24, R106, R170). -/
def packFlags (bnc tst : Bool) : Byte := ((0#6 ++ BitVec.ofBool tst : BitVec 7) ++ BitVec.ofBool bnc)

/-- `BNC`, bit 0 of the flag register (R24). -/
def bncOf (flags : Byte) : Bool := flags.getLsbD 0

/-- `TST`, bit 1 of the flag register (R24). -/
def tstOf (flags : Byte) : Bool := flags.getLsbD 1

end Sys2Proof.Machine
end

