-- ==== Sys2Proof/Machine/Operands.lean ====
section
/-! DEFINITION. The operand forms: an index of `B`, an index of `T`, a flags operand (spec/20_memory.md R50, R57,
spec/30_encoding.md R75, R80 items c and d). The table's index and a data byte take every value. -/

namespace Sys2Proof.Machine

/-- The cell of `B` an index names, none from 36 up: the index never wraps (R57, U8). -/
def frameIndex (idx : Byte) : Option (Fin 36) :=
  if h : idx.toNat < 36 then some ⟨idx.toNat, h⟩ else none

/-- The cell of `T` an index names, none from 48 up (R57, U8). -/
def textIndex (idx : Byte) : Option (Fin 48) :=
  if h : idx.toNat < 48 then some ⟨idx.toNat, h⟩ else none

/-- The two flags a WRFLAGS operand gives, `BNC` first; none when any of `dat[7:2]` is set (R106). -/
def flagsOperand (dat : Byte) : Option (Bool × Bool) :=
  if dat.extractLsb' 2 6 = 0#6 then some (dat.getLsbD 0, dat.getLsbD 1) else none

end Sys2Proof.Machine
end

