-- ==== Sys2Proof/Machine/Ops.lean ====
section
/-! DEFINITION. The named operations on the block's state: the accesses to cells and registers, the one way a command
ends (status and response), raising an error, and the reset event. -/

namespace Sys2Proof.Machine

/-- `MemRead(B, i, 1)` (spec/00_scope.md R10). -/
def State.getB (s : State) (i : Fin 36) : Byte := s.B[i]

/-- `MemWrite(B, i, 1, v)` (R10). -/
def State.setB (s : State) (i : Fin 36) (v : Byte) : State := { s with B := s.B.set i v }

/-- All 36 cells of `B` at once (R150, R183). -/
def State.setFrame (s : State) (f : FrameBytes) : State := { s with B := f }

/-- `MemRead(T, i, 1)` (R10). -/
def State.getT (s : State) (i : Fin 48) : Byte := s.T[i]

/-- `MemWrite(T, i, 1, v)` (R10). -/
def State.setT (s : State) (i : Fin 48) (v : Byte) : State := { s with T := s.T.set i v }

/-- All 48 cells of `T` at once (R148, R181). -/
def State.setText (s : State) (x : TextCells) : State := { s with T := x }

/-- `TLEN <- v` (spec/10_state.md R23). -/
def State.setTLEN (s : State) (v : Byte) : State := { s with TLEN := v }

/-- Reading `FLAGS`: bits 7:2 are hardwired to 0 and read as 0 (R24). -/
def State.getFLAGS (s : State) : Byte := s.FLAGS &&& 0x03

/-- `FLAGS <- {0b000000, tst, bnc}`: bits 7:2 are never written (R24). -/
def State.setFLAGS (s : State) (bnc tst : Bool) : State := { s with FLAGS := packFlags bnc tst }

/-- `CRC <- v` (R22). -/
def State.setCRC (s : State) (v : Crc16) : State := { s with CRC := v }

/-- `STATUS <- st` (R28, R29). -/
def State.setStatus (s : State) (st : Status) : State := { s with STATUS := st.code }

/-- `respond(st, d)`: the command's one response word goes out (R10, R73). -/
def State.respond (s : State) (st : Status) (d : Byte) : State :=
  { s with responses := s.responses ++ [responseWord st d] }

/-- How every legal command but an `RD*`, and every illegal word, ends: `STATUS <- st; respond(st, 0x00)` (R29, R74). -/
def State.complete (s : State) (st : Status) : State := (s.setStatus st).respond st 0x00

/-- `raise st` (R10): `STATUS` takes the code, the response is `{code, 0x00}`, nothing else changes (R214). This is the
block's whole "exception": no trap entry and no return exist (R219, R220). -/
def State.raise (s : State) (st : Status) : State := s.complete st

/-- The one effect of an illegal word (R80). -/
def State.illegal (s : State) : State := s.raise .errIllegal

/-- How a legal `RD*` ends: `respond(OK, d)`, no state written, `STATUS` included (R29, R100). -/
def State.answer (s : State) (d : Byte) : State := s.respond .ok d

/-- The reset event (R230, R36, R37): the registers as R36 gives them, every buffer cell a fresh unspecified value
whatever it was before. What the host still presents, and the responses it already has, are not the block's
(log entry 11). -/
def State.afterReset (s : State) : State :=
  { s with
    B := resetFrame (s.resets + 1)
    T := resetText (s.resets + 1)
    TLEN := 0x00
    FLAGS := 0x00
    CRC := 0x0000
    STATUS := Status.ok.code
    resets := s.resets + 1 }

/-- The host presents one command word, before anything else it will present (R12). -/
def State.present (s : State) (w : CommandWord) : State := { s with inputs := .command w :: s.inputs }

/-- What happens next at the port, and the state once it has been taken from the stream: the oldest event (R62). -/
def State.takeInput (s : State) : Option (PortEvent × State) :=
  match s.inputs with
  | [] => none
  | e :: rest => some (e, { s with inputs := rest })

end Sys2Proof.Machine
end

