-- ==== Sys2Proof/Machine/Access.lean ====
section
/-! DEFINITION. Family 0x0, the access commands (spec/40_access.md R100 to R113). An operand outside its range, which
no legal word has, gets the effect of an illegal word, as each rule's "Errors" says (log entry 9). -/

namespace Sys2Proof.Machine

/-- WRB (R101). -/
def execWrb (idx dat : Byte) (s : State) : Host.Outcome State Fault Refusal :=
  .next (match frameIndex idx with
    | some i => (s.setB i dat).complete .ok
    | none => s.illegal)

/-- RDB (R102). -/
def execRdb (idx : Byte) (s : State) : Host.Outcome State Fault Refusal :=
  .next (match frameIndex idx with
    | some i => s.answer (s.getB i)
    | none => s.illegal)

/-- WRT (R103). -/
def execWrt (idx dat : Byte) (s : State) : Host.Outcome State Fault Refusal :=
  .next (match textIndex idx with
    | some j => (s.setT j dat).complete .ok
    | none => s.illegal)

/-- RDT (R104): `TLEN` is ignored. -/
def execRdt (idx : Byte) (s : State) : Host.Outcome State Fault Refusal :=
  .next (match textIndex idx with
    | some j => s.answer (s.getT j)
    | none => s.illegal)

/-- WRLEN (R105): every byte is accepted. -/
def execWrlen (dat : Byte) (s : State) : Host.Outcome State Fault Refusal :=
  .next ((s.setTLEN dat).complete .ok)

/-- RDLEN (R107). -/
def execRdlen (s : State) : Host.Outcome State Fault Refusal := .next (s.answer s.TLEN)

/-- WRFLAGS (R106). -/
def execWrflags (dat : Byte) (s : State) : Host.Outcome State Fault Refusal :=
  .next (match flagsOperand dat with
    | some (bnc, tst) => (s.setFLAGS bnc tst).complete .ok
    | none => s.illegal)

/-- RDFLAGS (R108): the data byte has bits 7:2 zero. -/
def execRdflags (s : State) : Host.Outcome State Fault Refusal := .next (s.answer s.getFLAGS)

/-- RDSTATUS (R109): the response's own status is `OK`, its data the recorded status. -/
def execRdstatus (s : State) : Host.Outcome State Fault Refusal := .next (s.answer s.STATUS)

/-- RDCRCH (R110). -/
def execRdcrch (s : State) : Host.Outcome State Fault Refusal := .next (s.answer (hiByte s.CRC))

/-- RDCRCL (R111). -/
def execRdcrcl (s : State) : Host.Outcome State Fault Refusal := .next (s.answer (loByte s.CRC))

/-- RDTABH (R112): every index is legal. -/
def execRdtabh (idx : Byte) (s : State) : Host.Outcome State Fault Refusal := .next (s.answer (hiByte (tab idx)))

/-- RDTABL (R113): every index is legal. -/
def execRdtabl (idx : Byte) (s : State) : Host.Outcome State Fault Refusal := .next (s.answer (loByte (tab idx)))

end Sys2Proof.Machine
end

