-- ==== Sys2Proof/Machine/Base64Functions.lean ====
section
/-! DEFINITION. base64url without padding as pure functions (spec/42_base64url.md R141 to R145). -/

namespace Sys2Proof.Machine

/-- `b64_char(s)`, the code of the character with value `s` (R141, closed form). -/
def b64Char (s : Sextet) : Byte :=
  if s.toNat ≤ 25 then BitVec.ofNat 8 (0x41 + s.toNat)
  else if s.toNat ≤ 51 then BitVec.ofNat 8 (0x61 + (s.toNat - 26))
  else if s.toNat ≤ 61 then BitVec.ofNat 8 (0x30 + (s.toNat - 52))
  else if s.toNat = 62 then 0x2D
  else 0x5F

/-- `b64_val(c)`, the value of a character code, none outside the alphabet (R142): no padding character, no `+` or `/`,
no white space, no case folding. -/
def b64Val (c : Byte) : Option Sextet :=
  if 0x41 ≤ c.toNat ∧ c.toNat ≤ 0x5A then some (BitVec.ofNat 6 (c.toNat - 0x41))
  else if 0x61 ≤ c.toNat ∧ c.toNat ≤ 0x7A then some (BitVec.ofNat 6 (c.toNat - 0x61 + 26))
  else if 0x30 ≤ c.toNat ∧ c.toNat ≤ 0x39 then some (BitVec.ofNat 6 (c.toNat - 0x30 + 52))
  else if c = 0x2D then some 62
  else if c = 0x5F then some 63
  else none

/-- The four sextets of three bytes, first byte in bits 23:16, most significant sextet first (R144). -/
def packGroup (a b c : Byte) : Vector Sextet 4 :=
  let w : BitVec 24 := (a ++ b : BitVec 16) ++ c
  #v[w.extractLsb' 18 6, w.extractLsb' 12 6, w.extractLsb' 6 6, w.extractLsb' 0 6]

/-- The three bytes of four sextets, first sextet in bits 23:18 (R145). -/
def unpackGroup (p q r t : Sextet) : Vector Byte 3 :=
  let w : BitVec 24 := ((p ++ q : BitVec 12) ++ r : BitVec 18) ++ t
  #v[w.extractLsb' 16 8, w.extractLsb' 8 8, w.extractLsb' 0 8]

/-- Sextet `j` of a frame: the `j mod 4`-th of its group `j / 4` (R144). -/
def frameSextet (f : FrameBytes) (j : Fin 48) : Sextet :=
  have hg : j.val / 4 < 12 := by omega
  (packGroup f[3 * (j.val / 4)] f[3 * (j.val / 4) + 1] f[3 * (j.val / 4) + 2])[j.val % 4]

/-- `b64_enc(F)` (R144). -/
def b64Enc (f : FrameBytes) : TextCells := Vector.ofFn fun j => b64Char (frameSextet f j)

/-- Byte `i` of the frame that 48 sextets carry: the `i mod 3`-th of group `i / 3` (R145). -/
def sextetsByte (v : Vector Sextet 48) (i : Fin 36) : Byte :=
  have hg : i.val / 3 < 12 := by omega
  (unpackGroup v[4 * (i.val / 3)] v[4 * (i.val / 3) + 1] v[4 * (i.val / 3) + 2] v[4 * (i.val / 3) + 3])[i.val % 3]

/-- The values of the 48 cells; a cell outside the alphabet, whose value is not used, counts as 0 here (R145). -/
def textValues (x : TextCells) : Vector Sextet 48 := Vector.ofFn fun j => (b64Val x[j]).getD 0

/-- `b64_dec(X)` (R145): none when any of the 48 cells is outside the alphabet. -/
def b64Dec (x : TextCells) : Option FrameBytes :=
  if x.toList.all (fun c => (b64Val c).isSome) then some (Vector.ofFn (sextetsByte (textValues x))) else none

end Sys2Proof.Machine
end

