-- ==== Sys2Proof/Machine/Base64.lean ====
section
/-! DEFINITION. Family 0x2, the base64url commands (spec/42_base64url.md R148, R150). -/

namespace Sys2Proof.Machine

/-- The effect of B64ENC (R148). -/
def b64encode (s : State) : State := ((s.setText (b64Enc s.B)).setTLEN 48).complete .ok

/-- The frame that the text buffer holds: none when `TLEN` is not 48 or a cell is outside the alphabet (R147, R150,
R183). The cells are not examined when `TLEN` is not 48. -/
def textFrame (s : State) : Option FrameBytes := if s.TLEN = 48 then b64Dec s.T else none

/-- The effect of B64DEC (R150): on failure nothing but `STATUS` changes. -/
def b64decode (s : State) : State :=
  match textFrame s with
  | none => s.raise .errFormat
  | some f => (s.setFrame f).complete .ok

/-- B64ENC (R148). -/
def execB64enc (s : State) : Host.Outcome State Fault Refusal := .next (b64encode s)

/-- B64DEC (R150). -/
def execB64dec (s : State) : Host.Outcome State Fault Refusal := .next (b64decode s)

end Sys2Proof.Machine
end

