-- ==== Sys2Proof/Machine/FrameFunctions.lean ====
section
/-! DEFINITION. The frame's fields as pure functions: the tag byte, the workchain byte, payload and stored checksum
(spec/43_frame.md R160 to R168). -/

namespace Sys2Proof.Machine

/-- `tag_of(bnc, tst)` (R162): base 0x11 if bounceable else 0x51, with 0x80 set if test-only. -/
def tagOf (bnc tst : Bool) : Byte :=
  let base : Byte := if bnc then 0x11 else 0x51
  if tst then base ||| 0x80 else base

/-- `flags_of(t)` (R164): the four literal tags, `bnc` first, none for the other 252 values. The mask test of R165 is
not used. -/
def flagsOf (t : Byte) : Option (Bool × Bool) :=
  if t = 0x11 then some (true, false)
  else if t = 0x51 then some (false, false)
  else if t = 0x91 then some (true, true)
  else if t = 0xD1 then some (false, true)
  else none

/-- `wc_to_byte(w)` (R166): `w mod 256`. -/
def wcToByte (w : Int) : Byte := BitVec.ofInt 8 w

/-- `byte_to_wc(b)` (R167): the signed reading of the byte. -/
def byteToWc (b : Byte) : Int := b.toInt

/-- `F[0..34]`, the payload: what the checksum covers (R161). -/
def payload (f : FrameBytes) : List Byte := f.toList.take 34

/-- `{F[34], F[35]}`, the stored checksum, big-endian (R52, R131). -/
def storedChecksum (f : FrameBytes) : Crc16 := f[34] ++ f[35]

/-- `crc16(F[0..34])` (R130, R131). -/
def payloadChecksum (f : FrameBytes) : Crc16 := crc16 (payload f)

/-- The frame with its checksum field set, high byte first (R52, R130). -/
def withChecksum (f : FrameBytes) (c : Crc16) : FrameBytes := (f.set 34 (hiByte c)).set 35 (loByte c)

/-- A well-formed frame (R172). -/
def wellFormedFrame (f : FrameBytes) : Bool :=
  payloadChecksum f == storedChecksum f && (flagsOf f[0]).isSome

end Sys2Proof.Machine
end

