-- ==== Sys2Proof/Machine/Checksum.lean ====
section
/-! DEFINITION. Family 0x1, the checksum commands (spec/41_crc.md R127, R128, R130, R131). -/

namespace Sys2Proof.Machine

/-- CRCINIT (R127). -/
def execCrcinit (s : State) : Host.Outcome State Fault Refusal := .next ((s.setCRC 0x0000).complete .ok)

/-- CRCBYTE (R128). -/
def execCrcbyte (dat : Byte) (s : State) : Host.Outcome State Fault Refusal :=
  .next ((s.setCRC (crcByte s.CRC dat)).complete .ok)

/-- The effect of CKGEN (R130): the payload's checksum goes to `CRC` and, high byte first, to `B[34]` and `B[35]`. -/
def ckgen (s : State) : State :=
  let c := payloadChecksum s.B
  (((s.setCRC c).setB 34 (hiByte c)).setB 35 (loByte c)).complete .ok

/-- The effect of CKCHK (R131): on a mismatch `CRC` and `B` are unchanged. -/
def ckchk (s : State) : State :=
  let c := payloadChecksum s.B
  if c = storedChecksum s.B then (s.setCRC c).complete .ok else s.raise .errChecksum

/-- CKGEN (R130). -/
def execCkgen (s : State) : Host.Outcome State Fault Refusal := .next (ckgen s)

/-- CKCHK (R131). -/
def execCkchk (s : State) : Host.Outcome State Fault Refusal := .next (ckchk s)

end Sys2Proof.Machine
end

