-- ==== Sys2Proof/Machine/Composite.lean ====
section
/-! DEFINITION. Family 0x4, the composite commands (spec/44_composite.md R181, R183), each one atomic command written
from its own rule, not as a sequence of the primitives: that they agree with the sequences (R182, R184) is a claim. -/

namespace Sys2Proof.Machine

/-- The frame ENCODE builds (R181): the tag of the flags, the workchain byte and hash that `B` holds, and the checksum
over those 34 bytes, big-endian. -/
def builtFrame (s : State) : FrameBytes :=
  let p := s.B.set 0 (tagOf (bncOf s.FLAGS) (tstOf s.FLAGS))
  withChecksum p (payloadChecksum p)

/-- The effect of ENCODE (R181). -/
def encodeFrame (s : State) : State :=
  let f := builtFrame s
  ((((s.setFrame f).setCRC (payloadChecksum f)).setText (b64Enc f)).setTLEN 48).complete .ok

/-- The effect of DECODE (R183): format, then checksum, then tag (R186); `B`, `CRC` and `FLAGS` are committed together
or not at all. -/
def decodeText (s : State) : State :=
  match textFrame s with
  | none => s.raise .errFormat
  | some f =>
    if payloadChecksum f = storedChecksum f then
      match flagsOf f[0] with
      | none => s.raise .errTag
      | some (bnc, tst) => (((s.setFrame f).setCRC (payloadChecksum f)).setFLAGS bnc tst).complete .ok
    else s.raise .errChecksum

/-- ENCODE (R181). -/
def execEncode (s : State) : Host.Outcome State Fault Refusal := .next (encodeFrame s)

/-- DECODE (R183). -/
def execDecode (s : State) : Host.Outcome State Fault Refusal := .next (decodeText s)

end Sys2Proof.Machine
end

