-- ==== Sys2Proof/Machine/Tag.lean ====
section
/-! DEFINITION. Family 0x3, the tag commands (spec/43_frame.md R169, R170). -/

namespace Sys2Proof.Machine

/-- The effect of TAGPACK (R169): only `B[0]` is written; the stored checksum is stale from here (R240). -/
def tagpack (s : State) : State := (s.setB 0 (tagOf (bncOf s.FLAGS) (tstOf s.FLAGS))).complete .ok

/-- The effect of TAGUNPACK (R170): the checksum is not looked at. -/
def tagunpack (s : State) : State :=
  match flagsOf (s.getB 0) with
  | some (bnc, tst) => (s.setFLAGS bnc tst).complete .ok
  | none => s.raise .errTag

/-- TAGPACK (R169). -/
def execTagpack (s : State) : Host.Outcome State Fault Refusal := .next (tagpack s)

/-- TAGUNPACK (R170). -/
def execTagunpack (s : State) : Host.Outcome State Fault Refusal := .next (tagunpack s)

end Sys2Proof.Machine
end

