-- ==== Sys2Proof/Machine/Dispatch.lean ====
section
/-! DEFINITION. The dispatch: one arm per command, each a direct call of its meaning. -/

namespace Sys2Proof.Machine

/-- The effect of a decoded command on the block, response included. -/
def exec (i : Instr) (s : State) : Host.Outcome State Fault Refusal :=
  match i with
  -- family 0x0, access (spec/40_access.md)
  | .wrb idx dat => Sys2Proof.Machine.execWrb idx dat s
  | .rdb idx => Sys2Proof.Machine.execRdb idx s
  | .wrt idx dat => Sys2Proof.Machine.execWrt idx dat s
  | .rdt idx => Sys2Proof.Machine.execRdt idx s
  | .wrlen dat => Sys2Proof.Machine.execWrlen dat s
  | .rdlen => Sys2Proof.Machine.execRdlen s
  | .wrflags dat => Sys2Proof.Machine.execWrflags dat s
  | .rdflags => Sys2Proof.Machine.execRdflags s
  | .rdstatus => Sys2Proof.Machine.execRdstatus s
  | .rdcrch => Sys2Proof.Machine.execRdcrch s
  | .rdcrcl => Sys2Proof.Machine.execRdcrcl s
  | .rdtabh idx => Sys2Proof.Machine.execRdtabh idx s
  | .rdtabl idx => Sys2Proof.Machine.execRdtabl idx s
  -- family 0x1, checksum (spec/41_crc.md)
  | .crcinit => Sys2Proof.Machine.execCrcinit s
  | .crcbyte dat => Sys2Proof.Machine.execCrcbyte dat s
  | .ckgen => Sys2Proof.Machine.execCkgen s
  | .ckchk => Sys2Proof.Machine.execCkchk s
  -- family 0x2, base64url (spec/42_base64url.md)
  | .b64enc => Sys2Proof.Machine.execB64enc s
  | .b64dec => Sys2Proof.Machine.execB64dec s
  -- family 0x3, tag (spec/43_frame.md)
  | .tagpack => Sys2Proof.Machine.execTagpack s
  | .tagunpack => Sys2Proof.Machine.execTagunpack s
  -- family 0x4, composite (spec/44_composite.md)
  | .encode => Sys2Proof.Machine.execEncode s
  | .decode => Sys2Proof.Machine.execDecode s

end Sys2Proof.Machine
end

