-- ==== Sys2Proof/Machine/Command.lean ====
section
/-! DEFINITION. What one port event does: a command word is decoded and executed, or is illegal
(spec/30_encoding.md R72, R80); a reset event resets (spec/70_reset_and_hazards.md R230). -/

namespace Sys2Proof.Machine

/-- The block executes the word the host presents (R65, R72, R80): a legal word runs its command, an illegal one has
the one effect of R80. -/
def execWord (w : CommandWord) (s : State) : Host.Outcome State Fault Refusal :=
  match decodeWord w with
  | .legal i => exec i s
  | .illegal _ => .next s.illegal

/-- One event at the port. -/
def execEvent (e : PortEvent) (s : State) : Host.Outcome State Fault Refusal :=
  match e with
  | .command w => execWord w s
  | .reset => .next s.afterReset

/-- With no command presented no state changes: the block never acts on its own (spec/00_scope.md R12). -/
def idle (s : State) : Host.Outcome State Fault Refusal := .next s

end Sys2Proof.Machine
end

