-- ==== Sys2Proof/Machine/Step.lean ====
section
/-! DEFINITION. One step: the oldest event at the port takes its full effect (spec/20_memory.md R58, R62); with nothing
presented the block waits (spec/00_scope.md R12). -/

namespace Sys2Proof.Machine

/-- The block's one step kind (R12). -/
def step (s : State) : Host.Outcome State Fault Refusal :=
  match s.takeInput with
  | none => idle s
  | some (e, s') => execEvent e s'

/-- The host presents, as its very next command, the word whose bits are `w` (log entries 2 and 13). -/
def State.withFetchWord (s : State) (nbits w : Nat) : State := s.present (tableWord nbits w)

end Sys2Proof.Machine
end

