-- ==== Sys2Proof/Machine/Assembler.lean ====
section
/-! DEFINITION. The notation commands are written in: lines, operands, printing, pseudo-commands
(spec/30_encoding.md R82, R83). The block never sees any of it. -/

namespace Sys2Proof.Machine

/-- A host text string, by its characters (spec/91_not_in_source.md N9, log entry 14). -/
abbrev Text := List Char

/-- The cell value sent for a character (R196): its ASCII code when it has one, 0xFF for any other character. -/
def charCode (c : Char) : Byte := if c.toNat < 128 then BitVec.ofNat 8 c.toNat else 0xFF

/-- The value of a decimal digit. -/
def decValue (c : Char) : Option Nat :=
  if 48 ≤ c.toNat ∧ c.toNat ≤ 57 then some (c.toNat - 48) else none

/-- `hexval` (R193): 0-9, a-f, A-F, no other character. -/
def hexValue (c : Char) : Option Nat :=
  if 48 ≤ c.toNat ∧ c.toNat ≤ 57 then some (c.toNat - 48)
  else if 97 ≤ c.toNat ∧ c.toNat ≤ 102 then some (c.toNat - 97 + 10)
  else if 65 ≤ c.toNat ∧ c.toNat ≤ 70 then some (c.toNat - 65 + 10)
  else none

/-- The value of a digit string in a base, continued from `acc`; none at the first character that is no digit. -/
def digitsValue (base : Nat) (digit : Char → Option Nat) (acc : Nat) : Text → Option Nat
  | [] => some acc
  | c :: cs =>
    match digit c with
    | none => none
    | some d => digitsValue base digit (base * acc + d) cs

/-- A number operand (R82): `0x` and hexadecimal digits, or decimal digits; at least one digit; a byte. -/
def parseNumber (cs : Text) : Option Byte :=
  let v :=
    match cs with
    | [] => none
    | '0' :: 'x' :: d :: ds => digitsValue 16 hexValue 0 (d :: ds)
    | ds => digitsValue 10 decValue 0 ds
  match v with
  | some n => if n < 256 then some (BitVec.ofNat 8 n) else none
  | none => none

/-- The pieces of an assembler line. -/
inductive Token where
  | word (cs : Text)
  | quoted (c : Char)
  | comma
  deriving DecidableEq, Repr

/-- The word collected so far (held backwards), if there is one. -/
def endWord (acc : Text) : List Token := if acc = [] then [] else [.word acc.reverse]

/-- The pieces of a line: blanks separate, a comma is a piece, a character in single quotes is a piece whatever it is,
`;` starts a comment (R82). -/
def lex (acc : Text) : Text → List Token
  | [] => endWord acc
  | '\'' :: c :: '\'' :: rest => endWord acc ++ .quoted c :: lex [] rest
  | c :: rest =>
    if c = ';' then endWord acc
    else if c = ',' then endWord acc ++ .comma :: lex [] rest
    else if c = ' ' ∨ c = '\t' then endWord acc ++ lex [] rest
    else lex (c :: acc) rest

/-- An operand (R82): a number, or a character standing for its code. -/
def parseOperand : Token → Option Byte
  | .word cs => parseNumber cs
  | .quoted c => if c.toNat < 128 then some (charCode c) else none
  | .comma => none

/-- The operands of a line, comma separated (R82). -/
def parseOperands : List Token → Option (List Byte)
  | [] => some []
  | [a] => (parseOperand a).map fun x => [x]
  | [a, .comma, b] => (parseOperand a).bind fun x => (parseOperand b).map fun y => [x, y]
  | _ => none

/-- A command without operands. -/
def takes0 (i : Instr) : List Byte → Option Instr
  | [] => some i
  | _ => none

/-- A command with one operand. -/
def takes1 (i : Byte → Instr) : List Byte → Option Instr
  | [a] => some (i a)
  | _ => none

/-- A command with two operands, `idx` first (R82). -/
def takes2 (i : Byte → Byte → Instr) : List Byte → Option Instr
  | [a, b] => some (i a b)
  | _ => none

/-- The mnemonics (R76, R82) and how many operands each command takes. -/
def mnemonicTable : List (String × (List Byte → Option Instr)) :=
  [("WRB", takes2 .wrb), ("RDB", takes1 .rdb), ("WRT", takes2 .wrt), ("RDT", takes1 .rdt),
   ("WRLEN", takes1 .wrlen), ("RDLEN", takes0 .rdlen), ("WRFLAGS", takes1 .wrflags),
   ("RDFLAGS", takes0 .rdflags), ("RDSTATUS", takes0 .rdstatus), ("RDCRCH", takes0 .rdcrch),
   ("RDCRCL", takes0 .rdcrcl), ("RDTABH", takes1 .rdtabh), ("RDTABL", takes1 .rdtabl)] ++
  [("CRCINIT", takes0 .crcinit), ("CRCBYTE", takes1 .crcbyte), ("CKGEN", takes0 .ckgen),
   ("CKCHK", takes0 .ckchk), ("B64ENC", takes0 .b64enc), ("B64DEC", takes0 .b64dec),
   ("TAGPACK", takes0 .tagpack), ("TAGUNPACK", takes0 .tagunpack), ("ENCODE", takes0 .encode),
   ("DECODE", takes0 .decode)]

/-- What a line of the notation is. -/
inductive Line where
  | blank
  | command (i : Instr)
  | malformed
  deriving DecidableEq, Repr

/-- One line (R82): nothing, or one command. An operand out of its command's range is written all the same: the word is
then an illegal word (`encode`). -/
def assembleLine (cs : Text) : Line :=
  match lex [] cs with
  | [] => .blank
  | .word m :: ops =>
    match mnemonicTable.find? (fun e => e.1.toList == m), parseOperands ops with
    | some (_, f), some bs =>
      match f bs with
      | some i => .command i
      | none => .malformed
    | _, _ => .malformed
  | _ => .malformed

/-- The mnemonic of a command, as the opcode table spells it (R76). -/
def mnemonicOf : Instr → String
  | .wrb _ _ => "WRB"
  | .rdb _ => "RDB"
  | .wrt _ _ => "WRT"
  | .rdt _ => "RDT"
  | .wrlen _ => "WRLEN"
  | .rdlen => "RDLEN"
  | .wrflags _ => "WRFLAGS"
  | .rdflags => "RDFLAGS"
  | .rdstatus => "RDSTATUS"
  | .rdcrch => "RDCRCH"
  | .rdcrcl => "RDCRCL"
  | .rdtabh _ => "RDTABH"
  | .rdtabl _ => "RDTABL"
  | .crcinit => "CRCINIT"
  | .crcbyte _ => "CRCBYTE"
  | .ckgen => "CKGEN"
  | .ckchk => "CKCHK"
  | .b64enc => "B64ENC"
  | .b64dec => "B64DEC"
  | .tagpack => "TAGPACK"
  | .tagunpack => "TAGUNPACK"
  | .encode => "ENCODE"
  | .decode => "DECODE"

/-- A command's operands in the order the notation writes them, `idx` first (R82). -/
def operandsOf : Instr → List Byte
  | .wrb idx dat => [idx, dat]
  | .rdb idx => [idx]
  | .wrt idx dat => [idx, dat]
  | .rdt idx => [idx]
  | .wrlen dat => [dat]
  | .wrflags dat => [dat]
  | .rdtabh idx => [idx]
  | .rdtabl idx => [idx]
  | .crcbyte dat => [dat]
  | .rdlen => []
  | .rdflags => []
  | .rdstatus => []
  | .rdcrch => []
  | .rdcrcl => []
  | .crcinit => []
  | .ckgen => []
  | .ckchk => []
  | .b64enc => []
  | .b64dec => []
  | .tagpack => []
  | .tagunpack => []
  | .encode => []
  | .decode => []

/-- The character of a hexadecimal digit, from the given sixteen. -/
def hexDigit (digits : Text) (n : Nat) : Char := digits.getD n '0'

/-- Two hexadecimal characters of a byte, high nibble first (R200). -/
def hexByte (digits : Text) (b : Byte) : Text :=
  [hexDigit digits (b.toNat / 16), hexDigit digits (b.toNat % 16)]

/-- The digits R200 prints with. -/
def lowerHex : Text := "0123456789abcdef".toList

/-- The digits the spec's own notation prints with (R82). -/
def upperHex : Text := "0123456789ABCDEF".toList

/-- A byte as the notation prints it, `0x` and two digits (R82). -/
def renderByte (b : Byte) : Text := '0' :: 'x' :: hexByte upperHex b

/-- A command as the notation writes it: the mnemonic, then the operands, comma separated (R82). -/
def render (i : Instr) : Text :=
  (mnemonicOf i).toList ++
    match operandsOf i with
    | [] => []
    | [a] => ' ' :: renderByte a
    | a :: b :: _ => ' ' :: renderByte a ++ ", ".toList ++ renderByte b

/-- The name of a status code (R28). -/
def statusName (st : Byte) : Option String :=
  if st = 0x00 then some "OK"
  else if st = 0x01 then some "ERR_FORMAT"
  else if st = 0x02 then some "ERR_CHECKSUM"
  else if st = 0x03 then some "ERR_TAG"
  else if st = 0x04 then some "ERR_ILLEGAL"
  else none

/-- A response as the notation writes it: an arrow, then status name and data in braces (R82); none for a word whose
status is no code (no block gives one, R210). -/
def renderResponse (p : ResponseWord) : Option Text :=
  (statusName (responseStatus p)).map fun n =>
    "-> ".toList ++ Char.ofNat 0x7B :: n.toList ++ ", ".toList ++ renderByte (responseData p) ++ [Char.ofNat 0x7D]

/-- The `WRB` commands that store bytes from cell `i` up (R83 `LDB`). -/
def wrbFrom (i : Nat) : List Byte → List Instr
  | [] => []
  | b :: bs => .wrb (BitVec.ofNat 8 i) b :: wrbFrom (i + 1) bs

/-- The `WRT` commands that store characters from cell `j` up, none past cell 47 (R83 `LDTEXT`, R196). -/
def wrtFrom (j : Nat) : Text → List Instr
  | [] => []
  | c :: cs => if j < 48 then .wrt (BitVec.ofNat 8 j) (charCode c) :: wrtFrom (j + 1) cs else []

/-- Loading a text string (R196, R83 `LDTEXT`): the cells, then always `TLEN`, which saturates at 255. -/
def loadText (text : Text) : List Instr := wrtFrom 0 text ++ [.wrlen (BitVec.ofNat 8 (min text.length 255))]

/-- Reading back the 48 cells of `T` (R83 `RDTEXT`). -/
def readText : List Instr := (List.range 48).map fun j => .rdt (BitVec.ofNat 8 j)

/-- Reading back the 36 bytes of `B` (R83 `RDFRAME`). -/
def readFrame : List Instr := (List.range 36).map fun i => .rdb (BitVec.ofNat 8 i)

/-- The pseudo-commands (R83). -/
inductive Pseudo where
  | ldb (i : Byte) (bs : List Byte)
  | ldtext (text : Text)
  | rdcrc
  | rdtab (i : Byte)
  | checksum (bs : List Byte)
  | rdtext
  | rdframe
  deriving DecidableEq, Repr

/-- The expansion of a pseudo-command (R83); none for an LDB that runs past the 8-bit index. -/
def Pseudo.expand : Pseudo → Option (List Instr)
  | .ldb i bs => if i.toNat + bs.length ≤ 256 then some (wrbFrom i.toNat bs) else none
  | .ldtext text => some (loadText text)
  | .rdcrc => some [.rdcrch, .rdcrcl]
  | .rdtab i => some [.rdtabh i, .rdtabl i]
  | .checksum bs => some (.crcinit :: bs.map .crcbyte ++ [.rdcrch, .rdcrcl])
  | .rdtext => some readText
  | .rdframe => some readFrame

end Sys2Proof.Machine
end

