-- ==== Sys2Proof/Machine/Procedures.lean ====
section
/-! DEFINITION. The host procedures built on the block (spec/45_host_procedures.md R190 to R200): software of the host,
not part of the block (R5), each a sequence of commands presented one after another with nothing in between (log
entries 8 and 15). -/

namespace Sys2Proof.Machine

/-- DOC0's two errors (R197, R212, R213). -/
inductive HostError where
  | formatError
  | checksumMismatch
  deriving DecidableEq, Repr

/-- DOC0's `RawAddress`: workchain and account hash (R166, R168). -/
structure RawAddress where
  workchain : Int
  hash : Vector Byte 32
  deriving DecidableEq, Repr

/-- DOC0's `AddressFlags` (R24). -/
structure AddressFlags where
  bounceable : Bool
  testOnly : Bool
  deriving DecidableEq, Repr

/-- The workchain fits in a signed byte (R192). -/
def workchainInRange (w : Int) : Bool := decide (-128 ≤ w ∧ w ≤ 127)

/-- The workchain segment (R192): an optional minus sign, one or more decimal digits, nothing else, in range. -/
def parseWorkchain (seg : Text) : Option Int :=
  let v : Option Int :=
    match seg with
    | [] => none
    | ['-'] => none
    | '-' :: ds => (digitsValue 10 decValue 0 ds).map fun n => -(n : Int)
    | ds => (digitsValue 10 decValue 0 ds).map fun n => (n : Int)
  match v with
  | some w => if workchainInRange w then some w else none
  | none => none

/-- The hash segment (R193): exactly 64 hexadecimal characters, either case; the first of each pair is the high
nibble. -/
def parseHash (seg : Text) : Option (Vector Byte 32) :=
  if seg.length = 64 ∧ seg.all (fun c => (hexValue c).isSome) then
    some (Vector.ofFn fun k =>
      let nibble (j : Nat) : Nat := (hexValue (seg.getD j '0')).getD 0
      BitVec.ofNat 8 (16 * nibble (2 * k.val) + nibble (2 * k.val + 1)))
  else none

/-- `toRaw(text)` (R191): exactly one colon, then the two segments; every failure is a `FormatError`. -/
def toRaw (text : Text) : Except HostError RawAddress :=
  if text.count ':' = 1 then
    match parseWorkchain (text.takeWhile (· != ':')), parseHash ((text.dropWhile (· != ':')).drop 1) with
    | some w, some h => .ok ⟨w, h⟩
    | _, _ => .error .formatError
  else .error .formatError

/-- The raw text form on output (R200): decimal workchain, a colon, 64 lowercase hexadecimal characters. -/
def rawText (raw : RawAddress) : Text :=
  (if raw.workchain < 0 then ['-'] else []) ++ Nat.toDigits 10 raw.workchain.natAbs ++
    ':' :: raw.hash.toList.flatMap (hexByte lowerHex)

/-- The host presents one command word and takes the response (R12, R73). The last two cases never arise: the block
has no fault, and rejects nothing. -/
def ask (s : State) (w : CommandWord) : State × ResponseWord :=
  match step (s.present w) with
  | .next t => (t, t.responses.getLastD 0)
  | .fault _ => (s, 0)
  | .refused _ => (s, 0)

/-- The host presents commands one after another and takes every response (R62). -/
def askAll (s : State) : List Instr → State × List ResponseWord
  | [] => (s, [])
  | i :: is =>
    let r := ask s (encode i)
    let rest := askAll r.1 is
    (rest.1, r.2 :: rest.2)

/-- The state the block is in after the commands (R62). -/
def tell (s : State) (is : List Instr) : State := (askAll s is).1

/-- `checksum(bytes)` on the block (R190): CRCINIT, one CRCBYTE a byte, then the two halves. -/
def checksumOnBlock (bs : List Byte) (s : State) : State × Crc16 :=
  let t := tell s (.crcinit :: bs.map .crcbyte)
  let h := ask t (encode .rdcrch)
  let l := ask h.1 (encode .rdcrcl)
  (l.1, responseData h.2 ++ responseData l.2)

/-- The text the block holds, read with 48 RDT commands (R83 `RDTEXT`, R194 step 2). -/
def textOnBlock (s : State) : State × Text :=
  let r := askAll s readText
  (r.1, r.2.map fun p => Char.ofNat (responseData p).toNat)

/-- The operand of WRFLAGS for the flags: `flags.bounceable + 2 * flags.testOnly` (R194). -/
def flagsByte (f : AddressFlags) : Byte := packFlags f.bounceable f.testOnly

/-- What `encode` stages (R194 step 2): the flags, the workchain byte, the 32 hash bytes. -/
def stageRaw (raw : RawAddress) (f : AddressFlags) : List Instr :=
  .wrflags (flagsByte f) :: .wrb 1 (wcToByte raw.workchain) :: wrbFrom 2 raw.hash.toList

/-- `encode(raw, flags)` after its step 1 (R194 steps 2 and 3): nothing can fail. -/
def encodeRaw (raw : RawAddress) (f : AddressFlags) (s : State) : State × Text :=
  textOnBlock (tell s (stageRaw raw f ++ [.encode]))

/-- `encode(raw, flags)` with `raw` given as text (R194): a `FormatError` of `toRaw` sends no command. -/
def encodeText (text : Text) (f : AddressFlags) (s : State) : State × Except HostError Text :=
  match toRaw text with
  | .error e => (s, .error e)
  | .ok raw =>
    let r := encodeRaw raw f s
    (r.1, .ok r.2)

/-- `encode(raw, flags)` with `raw` given as an integer and a list of bytes (R194, last sentence): step 1 is only the
range check and the length check. -/
def encodeValue (w : Int) (hash : List Byte) (f : AddressFlags) (s : State) : State × Except HostError Text :=
  if h : workchainInRange w ∧ hash.length = 32 then
    let r := encodeRaw ⟨w, ⟨hash.toArray, by simpa using h.2⟩⟩ f s
    (r.1, .ok r.2)
  else (s, .error .formatError)

/-- DOC0's error for a status that is not `OK` (R197): `ERR_CHECKSUM` is `ChecksumMismatch`, `ERR_FORMAT` and `ERR_TAG`
are `FormatError`. -/
def errorOf (st : Byte) : HostError := if st = Status.errChecksum.code then .checksumMismatch else .formatError

/-- Loading a text and DECODE (R195 steps 1 and 2); the status of the response. -/
def decodeOnBlock (text : Text) (s : State) : State × Byte :=
  let r := ask (tell s (loadText text)) (encode .decode)
  (r.1, responseStatus r.2)

/-- What the block holds after a successful DECODE, read back (R195 step 4). -/
def readAddress (s : State) : State × (RawAddress × AddressFlags) :=
  let fl := ask s (encode .rdflags)
  let wc := ask fl.1 (encode (.rdb 1))
  let hs := askAll wc.1 ((List.range 32).map fun k => .rdb (BitVec.ofNat 8 (2 + k)))
  (hs.1,
    ⟨byteToWc (responseData wc.2), Vector.ofFn fun k => responseData (hs.2.getD k.val 0)⟩,
    ⟨bncOf (responseData fl.2), tstOf (responseData fl.2)⟩)

/-- `decode(text)` (R195). -/
def decodeAddress (text : Text) (s : State) : State × Except HostError (RawAddress × AddressFlags) :=
  let d := decodeOnBlock text s
  if d.2 = Status.ok.code then
    let r := readAddress d.1
    (r.1, .ok r.2)
  else (d.1, .error (errorOf d.2))

/-- The form discriminator of `normalize` (R198): exactly 48 characters and no colon. -/
def isUserFriendly (address : Text) : Bool := address.length == 48 && !address.contains ':'

/-- `normalize(address, targetBounceable)` (R198): a user-friendly address is decoded and encoded again on the block
with the bounceable flag replaced and the test-only flag kept; anything else is raw text. -/
def normalize (address : Text) (target : Bool) (s : State) : State × Except HostError Text :=
  if isUserFriendly address then
    let d := decodeOnBlock address s
    if d.2 = Status.ok.code then
      let fl := ask d.1 (encode .rdflags)
      let t := tell fl.1 [.wrflags (packFlags target (tstOf (responseData fl.2))), .encode]
      let r := textOnBlock t
      (r.1, .ok r.2)
    else (d.1, .error (errorOf d.2))
  else encodeText address ⟨target, false⟩ s

end Sys2Proof.Machine
end

