-- ==== Sys2Proof/Safety.lean ====
section
/-! DEFINITION. The terms the claims are stated in: what a safe outcome is, the invariant of the block, what "nothing
else changes" means, the tables of the spec that name commands, command sequences, and corruption of frames. -/

namespace Sys2Proof.Machine

/-- The state an outcome goes on with, if it does. -/
def nextOf (o : Host.Outcome State Fault Refusal) : Option State :=
  match o with
  | .next t => some t
  | .fault _ => none
  | .refused _ => none

/-- A safe outcome is one after which the block goes on: no other exists by the spec (R220, spec/93 end of part 1). -/
def goesOn (o : Host.Outcome State Fault Refusal) : Bool := (nextOf o).isSome

/-- The two states hold the same block: the tuple of R20 is equal. The port's own fields may differ. -/
abbrev SameBlock (s t : State) : Prop :=
  t.B = s.B ∧ t.T = s.T ∧ t.TLEN = s.TLEN ∧ t.FLAGS = s.FLAGS ∧ t.CRC = s.CRC ∧ t.STATUS = s.STATUS

/-- Everything of the block but `STATUS` is as before (R214). -/
abbrev SameButStatus (s t : State) : Prop :=
  t.B = s.B ∧ t.T = s.T ∧ t.TLEN = s.TLEN ∧ t.FLAGS = s.FLAGS ∧ t.CRC = s.CRC

/-- The command was answered by exactly one response word, `p`, and nothing else happened at the port (R73). -/
abbrev Responds (s t : State) (p : ResponseWord) : Prop :=
  t.responses = s.responses ++ [p] ∧ t.inputs = s.inputs ∧ t.resets = s.resets

/-- From `s` to `t` an error was raised with the status code `code` and had no other effect (R214). -/
abbrev Raised (s t : State) (code : Byte) : Prop :=
  SameButStatus s t ∧ t.STATUS = code ∧ Responds s t (code ++ 0x00#8)

/-- The word is illegal, and its one effect is that of R80: `STATUS <- ERR_ILLEGAL`, response `{0x04, 0x00}`. -/
abbrev IllegalAt (w : CommandWord) (s : State) : Prop :=
  isIllegal w = true ∧ ∃ t, execWord w s = .next t ∧ Raised s t 0x04

/-- A response word the block can give: one of the five codes, and data only beside `OK` (R74, R210). -/
def lawfulResponse (p : ResponseWord) : Bool :=
  decide ((responseStatus p).toNat ≤ 4) && (responseStatus p == 0 || responseData p == 0)

/-- The invariant of the block: the hardwired bits of `FLAGS` are 0 (R24), `STATUS` holds one of the five codes (R28),
and every response so far is one the spec allows (R74, R210). -/
abbrev State.Inv (s : State) : Prop :=
  s.FLAGS &&& 0xFC = 0 ∧ s.STATUS.toNat ≤ 4 ∧ ∀ p ∈ s.responses, lawfulResponse p = true

/-- The commands whose mnemonic begins with `RD` (R29). -/
def isRead : Instr → Bool
  | .rdb _ => true
  | .rdt _ => true
  | .rdlen => true
  | .rdflags => true
  | .rdstatus => true
  | .rdcrch => true
  | .rdcrcl => true
  | .rdtabh _ => true
  | .rdtabl _ => true
  | .wrb _ _ => false
  | .wrt _ _ => false
  | .wrlen _ => false
  | .wrflags _ => false
  | .crcinit => false
  | .crcbyte _ => false
  | .ckgen => false
  | .ckchk => false
  | .b64enc => false
  | .b64dec => false
  | .tagpack => false
  | .tagunpack => false
  | .encode => false
  | .decode => false

/-- The value a legal `RD*` command reads (R102, R104, R107 to R113); 0x00 for every other command (R74). -/
def readValue (s : State) : Instr → Byte
  | .rdb idx => s.B.toList.getD idx.toNat 0
  | .rdt idx => s.T.toList.getD idx.toNat 0
  | .rdlen => s.TLEN
  | .rdflags => s.FLAGS &&& 0x03
  | .rdstatus => s.STATUS
  | .rdcrch => (s.CRC >>> 8).setWidth 8
  | .rdcrcl => s.CRC.setWidth 8
  | .rdtabh idx => (crctab idx >>> 8).setWidth 8
  | .rdtabl idx => (crctab idx).setWidth 8
  | .wrb _ _ => 0
  | .wrt _ _ => 0
  | .wrlen _ => 0
  | .wrflags _ => 0
  | .crcinit => 0
  | .crcbyte _ => 0
  | .ckgen => 0
  | .ckchk => 0
  | .b64enc => 0
  | .b64dec => 0
  | .tagpack => 0
  | .tagunpack => 0
  | .encode => 0
  | .decode => 0

/-- The 23 assigned opcodes by operand format (R71, R76). -/
def formatN : List Nat :=
  [0x06, 0x08, 0x09, 0x0A, 0x0B, 0x10, 0x12, 0x13, 0x20, 0x21, 0x30, 0x31, 0x40, 0x41]

/-- The opcodes of format I (R71, R76). -/
def formatI : List Nat := [0x02, 0x04, 0x0C, 0x0D]

/-- The opcodes of format D (R71, R76). -/
def formatD : List Nat := [0x05, 0x07, 0x11]

/-- The opcodes of format X (R71, R76). -/
def formatX : List Nat := [0x01, 0x03]

/-- The assigned opcodes (R76). -/
def assignedOpcodes : List Nat := formatN ++ formatI ++ formatD ++ formatX

/-- `W & mask == match` for the command's row of the opcode table (R76). -/
abbrev matchesRow (w : CommandWord) (i : Instr) : Prop := w &&& (matchMask i).2 = (matchMask i).1

/-- The "extra constraint" column of the command's row of R76, on the fields of a word. -/
def rowConstraint (w : CommandWord) : Instr → Bool
  | .wrb _ _ => decide ((idxField w).toNat ≤ 35)
  | .rdb _ => decide ((idxField w).toNat ≤ 35)
  | .wrt _ _ => decide ((idxField w).toNat ≤ 47)
  | .rdt _ => decide ((idxField w).toNat ≤ 47)
  | .wrlen _ => true
  | .rdlen => true
  | .wrflags _ => decide ((datField w).toNat ≤ 3)
  | .rdflags => true
  | .rdstatus => true
  | .rdcrch => true
  | .rdcrcl => true
  | .rdtabh _ => true
  | .rdtabl _ => true
  | .crcinit => true
  | .crcbyte _ => true
  | .ckgen => true
  | .ckchk => true
  | .b64enc => true
  | .b64dec => true
  | .tagpack => true
  | .tagunpack => true
  | .encode => true
  | .decode => true

/-- The word selects the command's row: match, mask and extra constraint (R76). -/
abbrev selectsRow (w : CommandWord) (i : Instr) : Prop := matchesRow w i ∧ rowConstraint w i = true

/-- Commands one after another on the block, none presented after one that does not go on (R62). -/
def execAll : List Instr → State → Host.Outcome State Fault Refusal
  | [], s => .next s
  | i :: is, s =>
    match exec i s with
    | .next t => execAll is t
    | .fault f => .fault f
    | .refused r => .refused r

/-- Commands one after another, each run only if the one before responded `OK` (R184). -/
def execWhileOk : List Instr → State → Host.Outcome State Fault Refusal
  | [], s => .next s
  | i :: is, s =>
    match exec i s with
    | .next t => if t.STATUS = 0x00 then execWhileOk is t else .next t
    | .fault f => .fault f
    | .refused r => .refused r

/-- The frame with one bit changed: bit 0 is `B[0]` bit 7, bit 287 is `B[35]` bit 0 (R54, R133). -/
def flipBit (f : FrameBytes) (k : Fin 288) : FrameBytes :=
  f.set (k.val / 8) (f[k.val / 8] ^^^ (0x80#8 >>> (k.val % 8)))

/-- The frame with the bits of a 288-bit pattern changed; the pattern's top bit stands over `B[0]` bit 7 (R54, R133). -/
def xorFrame (f : FrameBytes) (p : BitVec 288) : FrameBytes :=
  Vector.ofFn fun i => f[i] ^^^ p.extractLsb' (8 * (35 - i.val)) 8

/-- The frame's stored checksum is right (R131, R161). -/
abbrev ChecksumOk (f : FrameBytes) : Prop := crc16 (f.toList.take 34) = f[34] ++ f[35]

/-- The frame of the spec's running example, V20 of spec/95_test_vectors.md (R130, R131, R148, R150, R181, R183). -/
def exampleFrame : FrameBytes :=
  #v[0x51, 0x00, 0x83, 0xDF, 0xD5, 0x52, 0xE6, 0x37, 0x29, 0xB4, 0x72, 0xFC,
    0xBC, 0xC8, 0xC4, 0x5E, 0xBC, 0xC6, 0x69, 0x17, 0x02, 0x55, 0x8B, 0x68,
    0xEC, 0x75, 0x27, 0xE1, 0xBA, 0x40, 0x3A, 0x0F, 0x31, 0xA8, 0x40, 0x48]

/-- The text of the same example. -/
def exampleText : TextCells :=
  #v[0x55, 0x51, 0x43, 0x44, 0x33, 0x39, 0x56, 0x53, 0x35, 0x6A, 0x63, 0x70,
    0x74, 0x48, 0x4C, 0x38, 0x76, 0x4D, 0x6A, 0x45, 0x58, 0x72, 0x7A, 0x47,
    0x61, 0x52, 0x63, 0x43, 0x56, 0x59, 0x74, 0x6F, 0x37, 0x48, 0x55, 0x6E,
    0x34, 0x62, 0x70, 0x41, 0x4F, 0x67, 0x38, 0x78, 0x71, 0x45, 0x42, 0x49]

end Sys2Proof.Machine
end

