-- ==== Sys2Proof/Certificates/Slice0/Obligations.lean ====
section
/-! DEFINITION. The statements for the provers: what the rules of spec/ say the block does. A statement of basis
'stated' formalises the rules its docstring names; a 'derived' one rests on what the spec marks as derived or as general
knowledge, or on a choice of the model named by its log entry. -/

open Sys2Proof Sys2Proof.Machine

/-- R70, R71, R72 and R76 together: no bit of an operand is dropped between the encoder and the decoder. -/
def Obligations.DecodeOfEncodeIsTheCommand : Prop :=
  ∀ i : Instr, i.wf = true →
    decodeWord (encode i) = .legal i ∧ decodeTableWord 24 (encode i).toNat = some i

/-- R72, R79: the other direction of the round trip. -/
def Obligations.LegalWordsHaveOneMeaning : Prop :=
  ∀ (w : CommandWord) (i : Instr), decodeWord w = .legal i → i.wf = true ∧ encode i = w

/-- R79 and R80, whole: the four items over the opcode lists of R76, and the one effect. -/
def Obligations.IllegalExactlyByFourItems : Prop :=
  ∀ w : CommandWord,
    (isIllegal w = true ↔
      (opField w).toNat ∉ assignedOpcodes ∨
      ((opField w).toNat ∈ formatN ∧ (idxField w ≠ 0 ∨ datField w ≠ 0)) ∨
      ((opField w).toNat ∈ formatI ∧ datField w ≠ 0) ∨
      ((opField w).toNat ∈ formatD ∧ idxField w ≠ 0) ∨
      ((opField w).toNat ∈ [0x01, 0x02] ∧ 36 ≤ (idxField w).toNat) ∨
      ((opField w).toNat ∈ [0x03, 0x04] ∧ 48 ≤ (idxField w).toNat) ∨
      (opField w = 0x07 ∧ (datField w).extractLsb' 2 6 ≠ 0#6)) ∧
    (isIllegal w = true → ∀ (s : State) (rest : List PortEvent), s.inputs = .command w :: rest →
      ∃ t, step s = .next t ∧ SameButStatus s t ∧ t.STATUS = 0x04 ∧
        t.responses = s.responses ++ [0x0400] ∧ t.inputs = rest ∧ t.resets = s.resets)

/-- R76: a word selects the row when `W & mask == match` and the row's extra constraint holds; with R72, R79 and R80 for what decoding does with it. A row is named by its mnemonic, whatever the operands. -/
def Obligations.OpcodeRowsDoNotOverlap : Prop :=
  (∀ (i j : Instr) (w : CommandWord), mnemonicOf i ≠ mnemonicOf j → ¬ (matchesRow w i ∧ matchesRow w j)) ∧
  (∀ (w : CommandWord) (i : Instr),
    (∃ j, decodeWord w = .legal j ∧ mnemonicOf j = mnemonicOf i) ↔ selectsRow w i) ∧
  (∀ w : CommandWord, isIllegal w = true ↔ ∀ i : Instr, ¬ selectsRow w i)

/-- The examples of R101, R102, R103, R105, R106, R112, R113, R127, R128 and the words of R150, R170, R183. -/
def Obligations.WordsWrittenOutDecode : Prop :=
  decodeWord 0x0101FF = .legal (.wrb 1 0xFF) ∧ decodeWord 0x020100 = .legal (.rdb 1) ∧
  decodeWord 0x030045 = .legal (.wrt 0 0x45) ∧ decodeWord 0x05002F = .legal (.wrlen 47) ∧
  decodeWord 0x070001 = .legal (.wrflags 1) ∧ decodeWord 0x0C0100 = .legal (.rdtabh 1) ∧
  decodeWord 0x0DFF00 = .legal (.rdtabl 255) ∧ decodeWord 0x100000 = .legal .crcinit ∧
  decodeWord 0x110031 = .legal (.crcbyte 0x31) ∧ decodeWord 0x210000 = .legal .b64dec ∧
  decodeWord 0x310000 = .legal .tagunpack ∧ decodeWord 0x410000 = .legal .decode

/-- R62, R65, R72: the command the block executes is exactly the word the host presents. How the stream is held is the model's choice (log entries 1 and 2). -/
def Obligations.StepRunsTheDecodedCommand : Prop :=
  (∀ (s : State) (w : CommandWord) (rest : List PortEvent) (i : Instr),
    s.inputs = .command w :: rest → decodeWord w = .legal i →
      i.wf = true ∧ step s = exec i { s with inputs := rest }) ∧
  (∀ (s : State) (i : Instr), i.wf = true →
    step (s.withFetchWord 24 (encode i).toNat) = exec i s)

/-- R72 and R80 against the meanings. For terms that are not well formed this is the model's choice, log entry 9. -/
def Obligations.EncodedCommandActsAsItsWord : Prop :=
  ∀ (i : Instr) (s : State), execWord (encode i) s = exec i s

/-- R12: "The block never acts on its own: with no command presented, no state changes"; R233. -/
def Obligations.IdleBlockKeepsItsState : Prop :=
  (∀ s : State, s.inputs = [] → step s = .next s) ∧ step State.reset = .next State.reset

/-- R36, for the state after the first reset and for the reset event of R230 between commands. -/
def Obligations.ResetLeavesTheStatedValues : Prop :=
  State.reset.CRC = 0x0000 ∧ State.reset.TLEN = 0x00 ∧ State.reset.FLAGS = 0x00 ∧ State.reset.STATUS = 0x00 ∧
  (∀ i : Byte, crctab i = tab i) ∧
  (∀ (s : State) (rest : List PortEvent), s.inputs = .reset :: rest →
    ∃ t, step s = .next t ∧ t.CRC = 0x0000 ∧ t.TLEN = 0x00 ∧ t.FLAGS = 0x00 ∧ t.STATUS = 0x00)

/-- R37, R230: unspecified, so a free value (log entries 4 and 5); the statement holds for every value of it. That a reset event leaves `responses` and the rest of `inputs` is the model's choice, log entry 11. -/
def Obligations.ResetCellsAreFreeValues : Prop :=
  (∀ k : Fin 36, State.reset.B[k] = Config.bReset 0 k) ∧ (∀ j : Fin 48, State.reset.T[j] = Config.tReset 0 j) ∧
  (∀ (s : State) (rest : List PortEvent), s.inputs = .reset :: rest →
    ∃ t, step s = .next t ∧ (∀ k : Fin 36, t.B[k] = Config.bReset (s.resets + 1) k) ∧
      (∀ j : Fin 48, t.T[j] = Config.tReset (s.resets + 1) j) ∧ t.resets = s.resets + 1 ∧
      t.responses = s.responses ∧ t.inputs = rest)

/-- R24, R28, R36. -/
def Obligations.ResetMeetsTheInvariant : Prop :=
  State.reset.Inv

/-- R24 (hardwired bits), R28 and R210 (the five codes), R74 (data only for a legal RD*). -/
def Obligations.EveryStepKeepsTheInvariant : Prop :=
  ∀ s t : State, s.Inv → step s = .next t → t.Inv

/-- R220, R243; spec/93: "Nothing in the block is `stuck`: every 24-bit word in every state has exactly one next state and one response". -/
def Obligations.EveryStepGoesOn : Prop :=
  (∀ s : State, ∃ t, step s = .next t) ∧ (∀ (w : CommandWord) (s : State), ∃ t, execWord w s = .next t)

/-- R73, R74; which error a command can raise is the table of R210. -/
def Obligations.EveryWordIsAnsweredOnce : Prop :=
  ∀ (w : CommandWord) (s : State), ∃ t p, execWord w s = .next t ∧ Responds s t p ∧
    (isIllegal w = true → p = 0x0400) ∧
    (∀ i, decodeWord w = .legal i → isRead i = true → p = 0x00#8 ++ readValue s i) ∧
    (∀ i, decodeWord w = .legal i → isRead i = false →
      p = 0x0000 ∨
      (p = 0x0100 ∧ (i = .b64dec ∨ i = .decode)) ∨
      (p = 0x0200 ∧ (i = .ckchk ∨ i = .decode)) ∨
      (p = 0x0300 ∧ (i = .tagunpack ∨ i = .decode)))

/-- R29, whole. -/
def Obligations.StatusUpdatePolicy : Prop :=
  ∀ (w : CommandWord) (s : State), ∃ t p, execWord w s = .next t ∧ Responds s t p ∧
    (isIllegal w = true → t.STATUS = 0x04) ∧
    (∀ i, decodeWord w = .legal i → isRead i = false → t.STATUS = responseStatus p) ∧
    (∀ i, decodeWord w = .legal i → isRead i = true → SameBlock s t) ∧
    (∀ v : Byte, ∃ u q, execWord w { s with STATUS := v } = .next u ∧ Responds s u q ∧ SameButStatus t u ∧
      ((∀ i, decodeWord w = .legal i → isRead i = false) → u.STATUS = t.STATUS ∧ q = p))

/-- R35 ("There is no hidden state"), R62 ("never on how that state was reached"), R211. -/
def Obligations.ResultDependsOnTheTupleOnly : Prop :=
  ∀ (w : CommandWord) (s s' : State), SameBlock s s' →
    ∃ t t' p, execWord w s = .next t ∧ execWord w s' = .next t' ∧ SameBlock t t' ∧
      Responds s t p ∧ Responds s' t' p

/-- R214: the same for all four error statuses. -/
def Obligations.ErrorsChangeOnlyStatus : Prop :=
  ∀ (w : CommandWord) (s : State), ∃ t p, execWord w s = .next t ∧ Responds s t p ∧
    (responseStatus p ≠ 0x00 → SameButStatus s t ∧ t.STATUS = responseStatus p ∧ responseData p = 0x00)

/-- The "written by" column of the table of R20; for CRC also R237. -/
def Obligations.OnlyTheNamedCommandsWrite : Prop :=
  ∀ (i : Instr) (s t : State), i.wf = true → exec i s = .next t →
    (t.B ≠ s.B → (∃ idx dat, i = .wrb idx dat) ∨ i = .ckgen ∨ i = .b64dec ∨ i = .tagpack ∨ i = .encode ∨
      i = .decode) ∧
    (t.T ≠ s.T → (∃ idx dat, i = .wrt idx dat) ∨ i = .b64enc ∨ i = .encode) ∧
    (t.TLEN ≠ s.TLEN → (∃ dat, i = .wrlen dat) ∨ i = .b64enc ∨ i = .encode) ∧
    (t.FLAGS ≠ s.FLAGS → (∃ dat, i = .wrflags dat) ∨ i = .tagunpack ∨ i = .decode) ∧
    (t.CRC ≠ s.CRC → i = .crcinit ∨ (∃ dat, i = .crcbyte dat) ∨ i = .ckgen ∨ i = .ckchk ∨ i = .encode ∨
      i = .decode) ∧
    (t.STATUS ≠ s.STATUS → isRead i = false)

/-- R101, whole; the frame covers every cell and register. -/
def Obligations.WrbWritesOneFrameCell : Prop :=
  encode (.wrb 1 0xFF) = 0x0101FF ∧ ∀ (s : State) (idx dat : Byte),
    (∀ h : idx.toNat < 36, decodeWord (0x01#8 ++ idx ++ dat) = .legal (.wrb idx dat) ∧
      ∃ t, exec (.wrb idx dat) s = .next t ∧
        t.B[idx.toNat] = dat ∧ (∀ k : Fin 36, k.val ≠ idx.toNat → t.B[k] = s.B[k]) ∧
        t.T = s.T ∧ t.TLEN = s.TLEN ∧ t.FLAGS = s.FLAGS ∧ t.CRC = s.CRC ∧ t.STATUS = 0x00 ∧
        Responds s t 0x0000) ∧
    (36 ≤ idx.toNat → IllegalAt (0x01#8 ++ idx ++ dat) s)

/-- R102, whole. -/
def Obligations.RdbReadsOneFrameCell : Prop :=
  encode (.rdb 1) = 0x020100 ∧
  (∀ s : State, ∃ t u, exec (.wrb 1 0xFF) s = .next t ∧ exec (.rdb 1) t = .next u ∧ Responds t u 0x00FF) ∧
  ∀ (s : State) (idx dat : Byte),
    (∀ h : idx.toNat < 36, decodeWord (0x02#8 ++ idx ++ 0x00#8) = .legal (.rdb idx) ∧
      ∃ t, exec (.rdb idx) s = .next t ∧ SameBlock s t ∧ Responds s t (0x00#8 ++ s.B[idx.toNat])) ∧
    (36 ≤ idx.toNat ∨ dat ≠ 0 → IllegalAt (0x02#8 ++ idx ++ dat) s)

/-- R103, whole: no check of the alphabet, TLEN unchanged. -/
def Obligations.WrtWritesOneTextCell : Prop :=
  encode (.wrt 0 0x45) = 0x030045 ∧ ∀ (s : State) (idx dat : Byte),
    (∀ h : idx.toNat < 48, decodeWord (0x03#8 ++ idx ++ dat) = .legal (.wrt idx dat) ∧
      ∃ t, exec (.wrt idx dat) s = .next t ∧
        t.T[idx.toNat] = dat ∧ (∀ k : Fin 48, k.val ≠ idx.toNat → t.T[k] = s.T[k]) ∧
        t.B = s.B ∧ t.TLEN = s.TLEN ∧ t.FLAGS = s.FLAGS ∧ t.CRC = s.CRC ∧ t.STATUS = 0x00 ∧
        Responds s t 0x0000) ∧
    (48 ≤ idx.toNat → IllegalAt (0x03#8 ++ idx ++ dat) s)

/-- R104: TLEN is ignored, also when idx >= TLEN. -/
def Obligations.RdtReadsOneTextCell : Prop :=
  encode (.rdt 0) = 0x040000 ∧ ∀ (s : State) (idx dat : Byte),
    (∀ h : idx.toNat < 48, decodeWord (0x04#8 ++ idx ++ 0x00#8) = .legal (.rdt idx) ∧
      ∃ t, exec (.rdt idx) s = .next t ∧ SameBlock s t ∧ Responds s t (0x00#8 ++ s.T[idx.toNat])) ∧
    (48 ≤ idx.toNat ∨ dat ≠ 0 → IllegalAt (0x04#8 ++ idx ++ dat) s)

/-- R105, whole. -/
def Obligations.WrlenWritesTheTextLength : Prop :=
  encode (.wrlen 47) = 0x05002F ∧ ∀ (s : State) (idx dat : Byte),
    (decodeWord (0x05#8 ++ 0x00#8 ++ dat) = .legal (.wrlen dat) ∧
      ∃ t, exec (.wrlen dat) s = .next t ∧
        t.TLEN = dat ∧ t.B = s.B ∧ t.T = s.T ∧ t.FLAGS = s.FLAGS ∧ t.CRC = s.CRC ∧ t.STATUS = 0x00 ∧
        Responds s t 0x0000 ∧
        (dat ≠ 48 → (∃ u, exec .decode t = .next u ∧ Raised t u 0x01) ∧
          ∃ u, exec .b64dec t = .next u ∧ Raised t u 0x01)) ∧
    (idx ≠ 0 → IllegalAt (0x05#8 ++ idx ++ dat) s)

/-- R106, whole. -/
def Obligations.WrflagsWritesTheFlagRegister : Prop :=
  encode (.wrflags 1) = 0x070001 ∧ ∀ (s : State) (idx dat : Byte),
    (dat.extractLsb' 2 6 = 0#6 → decodeWord (0x07#8 ++ 0x00#8 ++ dat) = .legal (.wrflags dat) ∧
      ∃ t, exec (.wrflags dat) s = .next t ∧
        t.FLAGS = 0#6 ++ dat.extractLsb' 1 1 ++ dat.extractLsb' 0 1 ∧
        t.B = s.B ∧ t.T = s.T ∧ t.TLEN = s.TLEN ∧ t.CRC = s.CRC ∧ t.STATUS = 0x00 ∧ Responds s t 0x0000) ∧
    (dat.extractLsb' 2 6 ≠ 0#6 ∨ idx ≠ 0 → IllegalAt (0x07#8 ++ idx ++ dat) s)

/-- R107, whole. -/
def Obligations.RdlenReadsTheTextLength : Prop :=
  ∀ s : State, decodeWord 0x060000 = .legal .rdlen ∧
    (∃ t, exec .rdlen s = .next t ∧ SameBlock s t ∧ Responds s t (0x00#8 ++ s.TLEN)) ∧
    (∀ w : CommandWord, opField w = 0x06 → w ≠ 0x060000 → IllegalAt w s) ∧
    (∃ t u, exec .encode s = .next t ∧ exec .rdlen t = .next u ∧ Responds t u 0x0030)

/-- R108; in states no run reaches, where a hardwired bit would be set, it still reads 0 (R24). -/
def Obligations.RdflagsReadsTheFlagRegister : Prop :=
  ∀ s : State, decodeWord 0x080000 = .legal .rdflags ∧
    (∃ t, exec .rdflags s = .next t ∧ SameBlock s t ∧ Responds s t (0x00#8 ++ (s.FLAGS &&& 0x03))) ∧
    (∀ w : CommandWord, opField w = 0x08 → w ≠ 0x080000 → IllegalAt w s) ∧
    (s.Inv → s.FLAGS &&& 0x03 = s.FLAGS) ∧
    (∀ t, exec .decode s = .next t → t.STATUS = 0x00 → t.B[0] = 0x91 →
      ∃ u, exec .rdflags t = .next u ∧ Responds t u 0x0003)

/-- R109, whole. -/
def Obligations.RdstatusReadsTheStatus : Prop :=
  ∀ s : State, decodeWord 0x090000 = .legal .rdstatus ∧
    (∃ t, exec .rdstatus s = .next t ∧ SameBlock s t ∧ Responds s t (0x00#8 ++ s.STATUS)) ∧
    (∀ w : CommandWord, opField w = 0x09 → w ≠ 0x090000 → IllegalAt w s) ∧
    (∃ t u, exec .rdstatus s = .next t ∧ exec .rdstatus t = .next u ∧
      Responds s t (0x00#8 ++ s.STATUS) ∧ Responds t u (0x00#8 ++ s.STATUS)) ∧
    (∀ f, s.TLEN = 48 → b64Dec s.T = some f → ¬ ChecksumOk f →
      ∃ t u, exec .decode s = .next t ∧ exec .rdstatus t = .next u ∧ Responds t u 0x0002)

/-- R110, whole. -/
def Obligations.RdcrchReadsTheHighHalf : Prop :=
  ∀ s : State, decodeWord 0x0A0000 = .legal .rdcrch ∧
    (∃ t, exec .rdcrch s = .next t ∧ SameBlock s t ∧ Responds s t (0x00#8 ++ s.CRC.extractLsb' 8 8)) ∧
    (∀ w : CommandWord, opField w = 0x0A → w ≠ 0x0A0000 → IllegalAt w s) ∧
    (s.CRC = 0x31C3 → ∃ t, exec .rdcrch s = .next t ∧ Responds s t 0x0031)

/-- R111, whole. -/
def Obligations.RdcrclReadsTheLowHalf : Prop :=
  ∀ s : State, decodeWord 0x0B0000 = .legal .rdcrcl ∧
    (∃ t, exec .rdcrcl s = .next t ∧ SameBlock s t ∧ Responds s t (0x00#8 ++ s.CRC.extractLsb' 0 8)) ∧
    (∀ w : CommandWord, opField w = 0x0B → w ≠ 0x0B0000 → IllegalAt w s) ∧
    (s.CRC = 0x31C3 → ∃ t, exec .rdcrcl s = .next t ∧ Responds s t 0x00C3)

/-- R112, whole; every index is legal and the value is the same for both forms of the generator (R31). -/
def Obligations.RdtabhReadsTheTableHigh : Prop :=
  encode (.rdtabh 1) = 0x0C0100 ∧ (∀ s : State, ∃ t, exec (.rdtabh 1) s = .next t ∧ Responds s t 0x0010) ∧ ∀ (s : State) (idx dat : Byte),
    (decodeWord (0x0C#8 ++ idx ++ 0x00#8) = .legal (.rdtabh idx) ∧
      ∃ t, exec (.rdtabh idx) s = .next t ∧ SameBlock s t ∧
        Responds s t (0x00#8 ++ (tab idx).extractLsb' 8 8) ∧ tab idx = crctab idx) ∧
    (dat ≠ 0 → IllegalAt (0x0C#8 ++ idx ++ dat) s)

/-- R113, whole; every index is legal and the value is the same for both forms of the generator (R31). -/
def Obligations.RdtablReadsTheTableLow : Prop :=
  encode (.rdtabl 255) = 0x0DFF00 ∧ (∀ s : State, ∃ t, exec (.rdtabl 255) s = .next t ∧ Responds s t 0x00F0) ∧ ∀ (s : State) (idx dat : Byte),
    (decodeWord (0x0D#8 ++ idx ++ 0x00#8) = .legal (.rdtabl idx) ∧
      ∃ t, exec (.rdtabl idx) s = .next t ∧ SameBlock s t ∧
        Responds s t (0x00#8 ++ (tab idx).extractLsb' 0 8) ∧ tab idx = crctab idx) ∧
    (dat ≠ 0 → IllegalAt (0x0D#8 ++ idx ++ dat) s)

/-- R127; "the only way to give CRC DOC0's initial register value 0 other than reset" is a remark about commands that set it unconditionally, stated here as: no other command answers CRC = 0 from every state. -/
def Obligations.CrcinitClearsTheRegister : Prop :=
  (∀ s : State, decodeWord 0x100000 = .legal .crcinit ∧
    (∃ t u v, exec .crcinit s = .next t ∧ t.CRC = 0x0000 ∧ t.B = s.B ∧ t.T = s.T ∧ t.TLEN = s.TLEN ∧
      t.FLAGS = s.FLAGS ∧ t.STATUS = 0x00 ∧ Responds s t 0x0000 ∧
      exec .rdcrch t = .next u ∧ Responds t u 0x0000 ∧ exec .rdcrcl u = .next v ∧ Responds u v 0x0000) ∧
    (∀ w : CommandWord, opField w = 0x10 → w ≠ 0x100000 → IllegalAt w s)) ∧
  (∀ i : Instr, i ≠ .crcinit → ∃ s t, exec i s = .next t ∧ t.CRC ≠ 0x0000)

/-- R128, whole. -/
def Obligations.CrcbyteAdvancesTheRegister : Prop :=
  (∀ (s : State) (idx dat : Byte),
    (decodeWord (0x11#8 ++ 0x00#8 ++ dat) = .legal (.crcbyte dat) ∧
      ∃ t, exec (.crcbyte dat) s = .next t ∧ t.CRC = crcByte s.CRC dat ∧ t.B = s.B ∧ t.T = s.T ∧
        t.TLEN = s.TLEN ∧ t.FLAGS = s.FLAGS ∧ t.STATUS = 0x00 ∧ Responds s t 0x0000) ∧
    (idx ≠ 0 → IllegalAt (0x11#8 ++ idx ++ dat) s)) ∧
  crcByte 0x0000 0x00 = 0x0000 ∧ crcByte 0xFFFF 0x00 = 0xE1F0 ∧ crcByte 0xFFFF 0xFF = 0xFF00 ∧
  crcByte 0x8000 0x00 = 0x9188 ∧
  (List.range 10).map (fun n => crc16 ([0x31, 0x32, 0x33, 0x34, 0x35, 0x36, 0x37, 0x38, 0x39].take n)) =
    [0x0000, 0x2672, 0x20B5, 0x9752, 0xD789, 0x546C, 0x20E4, 0x86D6, 0x9015, 0x31C3] ∧
  (∀ s : State, ∃ t, execAll [.crcinit, .crcbyte 0x31, .crcbyte 0x32, .crcbyte 0x33, .crcbyte 0x34, .crcbyte 0x35,
    .crcbyte 0x36, .crcbyte 0x37, .crcbyte 0x38, .crcbyte 0x39] s = .next t ∧ t.CRC = 0x31C3)

/-- R130, whole. -/
def Obligations.CkgenAppendsTheChecksum : Prop :=
  ∀ s : State, decodeWord 0x120000 = .legal .ckgen ∧
    (∃ t u v, exec .ckgen s = .next t ∧
      t.CRC = crc16 (s.B.toList.take 34) ∧
      t.B[34] = (crc16 (s.B.toList.take 34)).extractLsb' 8 8 ∧
      t.B[35] = (crc16 (s.B.toList.take 34)).extractLsb' 0 8 ∧
      (∀ k : Fin 36, k.val < 34 → t.B[k] = s.B[k]) ∧
      t.T = s.T ∧ t.TLEN = s.TLEN ∧ t.FLAGS = s.FLAGS ∧ t.STATUS = 0x00 ∧ Responds s t 0x0000 ∧
      ((∀ k : Fin 36, k.val < 34 → s.B[k] = 0) → t.B[34] = 0 ∧ t.B[35] = 0) ∧
      ((∀ k : Fin 36, k.val < 34 → s.B[k] = exampleFrame[k]) → t.CRC = 0x4048 ∧ t.B[34] = 0x40 ∧ t.B[35] = 0x48) ∧
      exec .ckgen t = .next u ∧ SameBlock t u ∧ exec .ckchk t = .next v ∧ Responds t v 0x0000) ∧
    (∀ w : CommandWord, opField w = 0x12 → w ≠ 0x120000 → IllegalAt w s)

/-- R131, whole, with its equivalent test. -/
def Obligations.CkchkComparesTheChecksum : Prop :=
  ∀ s : State, decodeWord 0x130000 = .legal .ckchk ∧
    (ChecksumOk s.B → ∃ t, exec .ckchk s = .next t ∧ t.CRC = crc16 (s.B.toList.take 34) ∧ t.B = s.B ∧ t.T = s.T ∧
      t.TLEN = s.TLEN ∧ t.FLAGS = s.FLAGS ∧ t.STATUS = 0x00 ∧ Responds s t 0x0000) ∧
    (¬ ChecksumOk s.B → ∃ t, exec .ckchk s = .next t ∧ Raised s t 0x02) ∧
    (ChecksumOk s.B ↔ crc16 s.B.toList = 0x0000) ∧
    ((∀ k : Fin 36, s.B[k] = 0) → ChecksumOk s.B) ∧
    (s.B = exampleFrame.set 35 0x49 → ∃ t, exec .ckchk s = .next t ∧ Responds s t 0x0200) ∧
    (∀ w : CommandWord, opField w = 0x13 → w ≠ 0x130000 → IllegalAt w s)

/-- R148, whole. -/
def Obligations.B64encEncodesTheFrame : Prop :=
  ∀ s : State, decodeWord 0x200000 = .legal .b64enc ∧
    (∃ t u, exec .b64enc s = .next t ∧ (∀ j : Fin 48, t.T[j] = (b64Enc s.B)[j]) ∧ t.TLEN = 48 ∧ t.B = s.B ∧
      t.CRC = s.CRC ∧ t.FLAGS = s.FLAGS ∧ t.STATUS = 0x00 ∧ Responds s t 0x0000 ∧
      ((∀ k : Fin 36, s.B[k] = 0x00) → ∀ j : Fin 48, t.T[j] = 0x41) ∧
      ((∀ k : Fin 36, s.B[k] = 0xFF) → ∀ j : Fin 48, t.T[j] = 0x5F) ∧
      (s.B = exampleFrame → t.T = exampleText) ∧
      exec .b64enc t = .next u ∧ SameBlock t u) ∧
    (∀ w : CommandWord, opField w = 0x20 → w ≠ 0x200000 → IllegalAt w s)

/-- R150, whole. -/
def Obligations.B64decDecodesTheText : Prop :=
  ∀ s : State, decodeWord 0x210000 = .legal .b64dec ∧
    (s.TLEN ≠ 48 → ∃ t, exec .b64dec s = .next t ∧ Raised s t 0x01) ∧
    (s.TLEN = 48 → (∃ j : Fin 48, b64Val s.T[j] = none) → ∃ t, exec .b64dec s = .next t ∧ Raised s t 0x01) ∧
    (∀ f, s.TLEN = 48 → b64Dec s.T = some f → ∃ t, exec .b64dec s = .next t ∧ t.B = f ∧ t.T = s.T ∧
      t.TLEN = s.TLEN ∧ t.CRC = s.CRC ∧ t.FLAGS = s.FLAGS ∧ t.STATUS = 0x00 ∧ Responds s t 0x0000) ∧
    (b64Dec s.T = none ↔ ∃ j : Fin 48, b64Val s.T[j] = none) ∧
    (s.TLEN = 48 → s.T = exampleText → ∃ t, exec .b64dec s = .next t ∧ t.B = exampleFrame ∧ Responds s t 0x0000) ∧
    (s.TLEN = 48 → s.T = exampleText.set 5 0x3D → ∃ t, exec .b64dec s = .next t ∧ Responds s t 0x0100) ∧
    (∀ w : CommandWord, opField w = 0x21 → w ≠ 0x210000 → IllegalAt w s)

/-- R169, whole, with the table of R162. -/
def Obligations.TagpackBuildsTheTagByte : Prop :=
  ∀ s : State, decodeWord 0x300000 = .legal .tagpack ∧
    (∃ t u, exec .tagpack s = .next t ∧
      t.B[0] = (if s.FLAGS.getLsbD 0 then (if s.FLAGS.getLsbD 1 then 0x91 else 0x11)
        else (if s.FLAGS.getLsbD 1 then 0xD1 else 0x51)) ∧
      (∀ k : Fin 36, k.val ≠ 0 → t.B[k] = s.B[k]) ∧ t.T = s.T ∧ t.TLEN = s.TLEN ∧ t.FLAGS = s.FLAGS ∧
      t.CRC = s.CRC ∧ t.STATUS = 0x00 ∧ Responds s t 0x0000 ∧ exec .tagpack t = .next u ∧ SameBlock t u) ∧
    (∀ w : CommandWord, opField w = 0x30 → w ≠ 0x300000 → IllegalAt w s)

/-- R170, whole, with the table of R164. -/
def Obligations.TagunpackRecoversTheFlags : Prop :=
  ∀ s : State, decodeWord 0x310000 = .legal .tagunpack ∧
    (∀ fl : Byte, (s.B[0], fl) ∈ [(0x11#8, 0x01#8), (0x51, 0x00), (0x91, 0x03), (0xD1, 0x02)] →
      ∃ t, exec .tagunpack s = .next t ∧ t.FLAGS = fl ∧ t.B = s.B ∧ t.T = s.T ∧ t.TLEN = s.TLEN ∧ t.CRC = s.CRC ∧
        t.STATUS = 0x00 ∧ Responds s t 0x0000) ∧
    (s.B[0] ∉ [0x11#8, 0x51, 0x91, 0xD1] → ∃ t, exec .tagunpack s = .next t ∧ Raised s t 0x03) ∧
    (∀ w : CommandWord, opField w = 0x31 → w ≠ 0x310000 → IllegalAt w s)

/-- R181, whole: the old B[0], B[34], B[35], CRC, T, TLEN are not read. In states no run reaches, with a hardwired bit of FLAGS set, DECODE clears it. -/
def Obligations.EncodeBuildsFrameAndText : Prop :=
  ∀ s : State, decodeWord 0x400000 = .legal .encode ∧
    (∃ t u v, exec .encode s = .next t ∧
      (∀ (p : List Byte) (f : FrameBytes),
        p = tagOf (s.FLAGS.getLsbD 0) (s.FLAGS.getLsbD 1) :: (s.B.toList.drop 1).take 33 →
        f.toList = p ++ [(crc16 p).extractLsb' 8 8, (crc16 p).extractLsb' 0 8] →
          t.B = f ∧ t.CRC = crc16 p ∧ ∀ j : Fin 48, t.T[j] = (b64Enc f)[j]) ∧
      t.B[0] = tagOf (s.FLAGS.getLsbD 0) (s.FLAGS.getLsbD 1) ∧
      (∀ k : Fin 36, 1 ≤ k.val → k.val < 34 → t.B[k] = s.B[k]) ∧
      t.CRC = crc16 (t.B.toList.take 34) ∧ t.B[34] = t.CRC.extractLsb' 8 8 ∧ t.B[35] = t.CRC.extractLsb' 0 8 ∧
      (∀ j : Fin 48, t.T[j] = (b64Enc t.B)[j]) ∧
      t.TLEN = 48 ∧ t.FLAGS = s.FLAGS ∧ t.STATUS = 0x00 ∧ Responds s t 0x0000 ∧
      exec .encode t = .next u ∧ SameBlock t u ∧ exec .decode t = .next v ∧ Responds t v 0x0000 ∧
      (s.FLAGS &&& 0xFC = 0 → SameBlock t v) ∧
      (s.FLAGS = 0x00 → (∀ k : Fin 36, 1 ≤ k.val → k.val < 34 → s.B[k] = exampleFrame[k]) →
        t.B = exampleFrame ∧ t.CRC = 0x4048 ∧ t.T = exampleText)) ∧
    (∀ w : CommandWord, opField w = 0x40 → w ≠ 0x400000 → IllegalAt w s)

/-- R183, whole, with the order of R186. -/
def Obligations.DecodeChecksAndCommits : Prop :=
  ∀ s : State, decodeWord 0x410000 = .legal .decode ∧
    (s.TLEN ≠ 48 → ∃ t, exec .decode s = .next t ∧ Raised s t 0x01) ∧
    (s.TLEN = 48 → b64Dec s.T = none → ∃ t, exec .decode s = .next t ∧ Raised s t 0x01) ∧
    (∀ f, s.TLEN = 48 → b64Dec s.T = some f → ¬ ChecksumOk f →
      ∃ t, exec .decode s = .next t ∧ Raised s t 0x02) ∧
    (∀ f, s.TLEN = 48 → b64Dec s.T = some f → ChecksumOk f → flagsOf f[0] = none →
      ∃ t, exec .decode s = .next t ∧ Raised s t 0x03) ∧
    (∀ f bnc tst, s.TLEN = 48 → b64Dec s.T = some f → ChecksumOk f → flagsOf f[0] = some (bnc, tst) →
      ∃ t, exec .decode s = .next t ∧ t.B = f ∧ t.CRC = crc16 (f.toList.take 34) ∧
        t.FLAGS = 0#6 ++ BitVec.ofBool tst ++ BitVec.ofBool bnc ∧ t.T = s.T ∧ t.TLEN = s.TLEN ∧
        t.STATUS = 0x00 ∧ Responds s t 0x0000 ∧ b64Enc t.B = s.T) ∧
    (s.TLEN = 48 → (∀ j : Fin 48, s.T[j] = 0x41) → ∃ t, exec .decode s = .next t ∧ Raised s t 0x03) ∧
    (s.TLEN = 48 → s.T = exampleText → ∃ t, exec .decode s = .next t ∧ t.B = exampleFrame ∧ t.CRC = 0x4048 ∧
      t.FLAGS = 0x00 ∧ Responds s t 0x0000) ∧
    (∀ w : CommandWord, opField w = 0x41 → w ≠ 0x410000 → IllegalAt w s)

/-- R182, which the spec marks as derived from R181, R169, R130 and R148. -/
def Obligations.EncodeIsTheThreeCommands : Prop :=
  ∀ s : State, ∃ t u, exec .encode s = .next t ∧ execAll [.tagpack, .ckgen, .b64enc] s = .next u ∧ SameBlock t u ∧
    t.responses = s.responses ++ [0x0000] ∧ u.responses = s.responses ++ [0x0000, 0x0000, 0x0000]

/-- R184, which the spec marks as derived. -/
def Obligations.DecodeAgainstTheThreeCommands : Prop :=
  ∀ s : State, ∃ t u, exec .decode s = .next t ∧ execWhileOk [.b64dec, .ckchk, .tagunpack] s = .next u ∧
    t.STATUS = u.STATUS ∧
    (t.STATUS = 0x00 → SameBlock t u) ∧
    (t.STATUS = 0x01 → SameBlock t u ∧ SameButStatus s t) ∧
    (t.STATUS = 0x02 → SameButStatus s t ∧ b64Dec s.T = some u.B ∧ u.CRC = s.CRC ∧ u.FLAGS = s.FLAGS) ∧
    (t.STATUS = 0x03 → SameButStatus s t ∧ b64Dec s.T = some u.B ∧ u.CRC = crc16 (u.B.toList.take 34) ∧
      u.FLAGS = s.FLAGS) ∧
    t.STATUS.toNat ≤ 3

/-- R185, which the spec marks as derived from R181 and R183. The invariant is a premise of (a) because a hardwired bit of FLAGS set, which no run reaches, would not survive. -/
def Obligations.EncodeThenDecodeRoundTrip : Prop :=
  (∀ s : State, s.Inv → ∃ t u, exec .encode s = .next t ∧ exec .decode t = .next u ∧
    Responds t u 0x0000 ∧ SameBlock t u ∧ u.STATUS = 0x00 ∧ u.FLAGS = s.FLAGS ∧
    (∀ k : Fin 36, 1 ≤ k.val → k.val < 34 → u.B[k] = s.B[k])) ∧
  (∀ s t : State, exec .decode s = .next t → t.STATUS = 0x00 →
    ∃ u, exec .encode t = .next u ∧ u.T = s.T ∧ u.TLEN = s.TLEN) ∧
  (∀ s : State, ∃ t, exec .encode s = .next t ∧ t.TLEN = 48 ∧ ∀ j : Fin 48, (b64Val t.T[j]).isSome = true)

/-- R172, which the spec marks as derived. -/
def Obligations.DecodeAcceptsExactlyWellFormedFrames : Prop :=
  (∀ s : State, ∃ t p, exec .decode s = .next t ∧ Responds s t p ∧
    (p = 0x0000 ↔ s.TLEN = 48 ∧ ∃ f, b64Dec s.T = some f ∧ ChecksumOk f ∧ f[0] ∈ [0x11#8, 0x51, 0x91, 0xD1])) ∧
  (∀ s : State, ∃ t, exec .encode s = .next t ∧ ChecksumOk t.B ∧ t.B[0] ∈ [0x11#8, 0x51, 0x91, 0xD1] ∧
    wellFormedFrame t.B = true)

/-- 90_conflicts.md C3 resolution (ii): "in no case does DECODE respond `OK`"; R133 item (e). -/
def Obligations.OneChangedCharacterIsRejected : Prop :=
  ∀ (s t : State) (j : Fin 48) (c : Byte), exec .decode s = .next t → t.STATUS = 0x00 → c ≠ s.T[j] →
    ∃ u, exec .decode (s.setT j c) = .next u ∧
      (b64Val c = none → Raised (s.setT j c) u 0x01) ∧ (b64Val c ≠ none → Raised (s.setT j c) u 0x02)

/-- R126, which the spec marks as derived: CRC_IMPL is unobservable, so that the commands use the bit-serial form is no restriction (log entry 6). -/
def Obligations.TableAndBitSerialFormsAgree : Prop :=
  ∀ (r : Crc16) (v : Byte), crcByteTab r v = crcByte r v ∧ (∀ impl : CrcImpl, crcStep impl r v = crcByte r v) ∧
    (r <<< 8) ^^^ crctab (r.extractLsb' 8 8 ^^^ v) = crcByte r v

/-- R124, a passage the spec marks as general knowledge (G2), and R31. -/
def Obligations.TableHasTheConstructedEntries : Prop :=
  crctabEntries.length = 256 ∧ ∀ i : Byte, crctab i = tab i ∧ tabByShift i = tab i

/-- R129, which the spec marks as derived. -/
def Obligations.ChecksumLaws : Prop :=
  (∀ a b : List Byte, a.length = b.length → crc16 (List.zipWith (· ^^^ ·) a b) = crc16 a ^^^ crc16 b) ∧
  (∀ s : List Byte, crc16 (0x00 :: s) = crc16 s) ∧
  (∀ s : List Byte, crc16 (s ++ [(crc16 s).extractLsb' 8 8, (crc16 s).extractLsb' 0 8]) = 0x0000) ∧
  (∀ s t : List Byte, crc16 (s ++ t) = t.foldl crcByte (crc16 s))

/-- R133 items (a) and (b), a rule the spec marks as derived. -/
def Obligations.OneAndTwoBitErrorsAreDetected : Prop :=
  ∀ s : State, ChecksumOk s.B →
    (∀ k : Fin 288, ∃ t, exec .ckchk (s.setFrame (flipBit s.B k)) = .next t ∧
      Raised (s.setFrame (flipBit s.B k)) t 0x02) ∧
    (∀ k l : Fin 288, k ≠ l → ∃ t, exec .ckchk (s.setFrame (flipBit (flipBit s.B k) l)) = .next t ∧
      Raised (s.setFrame (flipBit (flipBit s.B k) l)) t 0x02)

/-- R133 item (c), a rule the spec marks as derived. -/
def Obligations.ShortBurstsAreDetected : Prop :=
  ∀ (s : State) (b : BitVec 16) (k : Nat), ChecksumOk s.B → b ≠ 0 → k ≤ 272 →
    ∃ t, exec .ckchk (s.setFrame (xorFrame s.B (b.setWidth 288 <<< k))) = .next t ∧
      Raised (s.setFrame (xorFrame s.B (b.setWidth 288 <<< k))) t 0x02

/-- R141 (general knowledge, G4 and G6) and R142 (derived). -/
def Obligations.AlphabetIsABijection : Prop :=
  (∀ s : Sextet, b64Val (b64Char s) = some s) ∧ (∀ (c : Byte) (s : Sextet), b64Val c = some s → b64Char s = c) ∧
  ((List.range 256).filter fun n => (b64Val (BitVec.ofNat 8 n)).isNone).length = 192 ∧
  (∀ c ∈ [0x3D#8, 0x2B, 0x2F, 0x20, 0x09, 0x0A, 0x0D, 0x00, 0x3A], b64Val c = none) ∧
  (∀ c : Byte, 0x80 ≤ c.toNat → b64Val c = none)

/-- R146, which the spec marks as derived. -/
def Obligations.TextLayerRoundTrips : Prop :=
  (∀ f : FrameBytes, b64Dec (b64Enc f) = some f) ∧
  (∀ (x : TextCells) (f : FrameBytes), b64Dec x = some f → b64Enc f = x) ∧
  (∀ (f : FrameBytes) (j : Fin 48), (b64Val (b64Enc f)[j]).isSome = true)

/-- R163, R171 (derived), R164 and R165. -/
def Obligations.TagByteLaws : Prop :=
  (∀ bnc tst : Bool, flagsOf (tagOf bnc tst) = some (bnc, tst) ∧
    tagOf bnc tst = 0x11 ||| (if bnc then 0x00 else 0x40) ||| (if tst then 0x80 else 0x00) ∧
    tagOf bnc tst &&& 0x11 = 0x11) ∧
  (∀ (t : Byte) (bnc tst : Bool), flagsOf t = some (bnc, tst) →
    tagOf bnc tst = t ∧ tst = t.getLsbD 7 ∧ bnc = !t.getLsbD 6) ∧
  ((List.range 256).filter fun n => (flagsOf (BitVec.ofNat 8 n)).isNone).length = 252

/-- R166 and R167. -/
def Obligations.WorkchainByteRoundTrips : Prop :=
  (∀ w : Int, -128 ≤ w → w ≤ 127 →
    ((wcToByte w).toNat : Int) = (if 0 ≤ w then w else w + 256) ∧ byteToWc (wcToByte w) = w) ∧
  (∀ b : Byte, byteToWc b = (if b.toNat ≤ 127 then (b.toNat : Int) else (b.toNat : Int) - 256) ∧
    -128 ≤ byteToWc b ∧ byteToWc b ≤ 127 ∧ wcToByte (byteToWc b) = b ∧
    ∀ n ≥ 8, byteToWc b = (b.signExtend n).toInt) ∧
  wcToByte 0 = 0x00 ∧ wcToByte 127 = 0x7F ∧ wcToByte (-128) = 0x80 ∧ wcToByte (-1) = 0xFF

/-- R59, whose list (WRB, WRT, WRLEN, WRFLAGS, CKGEN, CKCHK, B64ENC, TAGPACK, ENCODE) the spec marks partly as derived; the statement covers the commands the rule does not list as well. -/
def Obligations.RepeatedCommandsAreIdempotent : Prop :=
  (∀ (i : Instr) (s : State), i.wf = true → isRead i = true → ∃ t, exec i s = .next t ∧ SameBlock s t) ∧
  (∀ (i : Instr) (s : State), (∀ dat, i ≠ .crcbyte dat) →
    ∃ t u, exec i s = .next t ∧ exec i t = .next u ∧ SameBlock t u) ∧
  (∃ (s t u : State) (dat : Byte), exec (.crcbyte dat) s = .next t ∧ exec (.crcbyte dat) t = .next u ∧
    ¬ SameBlock t u)

/-- R190; log entry 15 for how a procedure is run. -/
def Obligations.ChecksumProcedureComputesCrc16 : Prop :=
  ∀ (bs : List Byte) (s : State), (checksumOnBlock bs s).2 = crc16 bs ∧ (checksumOnBlock bs s).1.CRC = crc16 bs ∧
    (checksumOnBlock bs s).1.B = s.B ∧ (checksumOnBlock bs s).1.T = s.T ∧ (checksumOnBlock bs s).1.TLEN = s.TLEN ∧
    (checksumOnBlock bs s).1.FLAGS = s.FLAGS ∧ (checksumOnBlock bs s).1.STATUS = 0x00 ∧
    (checksumOnBlock bs s).1.inputs = s.inputs

/-- DOC0's round trip S1, through R194 and R195; log entries 14 and 15. -/
def Obligations.HostDecodeInvertsHostEncode : Prop :=
  ∀ (raw : RawAddress) (f : AddressFlags) (s u : State), workchainInRange raw.workchain = true →
    (encodeRaw raw f s).2.length = 48 ∧ ':' ∉ (encodeRaw raw f s).2 ∧
    (decodeAddress (encodeRaw raw f s).2 u).2 = .ok (raw, f)

/-- R198, with the errors of its first branch by R195 and R197; log entries 14 and 15. -/
def Obligations.NormalizeReplacesBounceableOnly : Prop :=
  (∀ (raw : RawAddress) (f : AddressFlags) (target : Bool) (s u v : State), workchainInRange raw.workchain = true →
    (normalize (encodeRaw raw f s).2 target u).2 = .ok (encodeRaw raw ⟨target, f.testOnly⟩ v).2) ∧
  (∀ (a : Text) (x : TextCells) (target : Bool) (s : State), a.length = 48 → ':' ∉ a → x.toList = a.map charCode →
    (b64Dec x = none → (normalize a target s).2 = .error .formatError) ∧
    (∀ f, b64Dec x = some f → ¬ ChecksumOk f → (normalize a target s).2 = .error .checksumMismatch) ∧
    (∀ f, b64Dec x = some f → ChecksumOk f → flagsOf f[0] = none → (normalize a target s).2 = .error .formatError) ∧
    (∀ e, (decodeAddress a s).2 = .error e → (normalize a target s).2 = .error e)) ∧
  (∀ (a : Text) (target : Bool) (s : State), ¬ (a.length = 48 ∧ ':' ∉ a) →
    normalize a target s = encodeText a ⟨target, false⟩ s)

/-- R191, R192, R193 and R200, whose pairing of hexadecimal characters the spec marks as general knowledge (G8). -/
def Obligations.RawTextRoundTrips : Prop :=
  ∀ raw : RawAddress, workchainInRange raw.workchain = true → toRaw (rawText raw) = .ok raw
end

