-- ==== Sys2Proof/Laws/Decode.lean ====
section
/-! SUPPORT. The fields of a built word, and what the decoder does with a word of each format. -/

namespace Sys2Proof

@[simp] theorem opField_mkWord (op idx dat : Byte) : opField (mkWord op idx dat) = op := by
  ext i hi
  simp only [opField, mkWord, BitVec.getElem_extractLsb', BitVec.getLsbD_append]
  have h1 : ¬ 16 + i < 8 := by omega
  have h2 : ¬ 16 + i - 8 < 8 := by omega
  have h3 : 16 + i - 8 - 8 = i := by omega
  simp [h1, h2, h3, hi]

@[simp] theorem idxField_mkWord (op idx dat : Byte) : idxField (mkWord op idx dat) = idx := by
  ext i hi
  simp only [idxField, mkWord, BitVec.getElem_extractLsb', BitVec.getLsbD_append]
  have h1 : ¬ 8 + i < 8 := by omega
  simp [h1, hi]

@[simp] theorem datField_mkWord (op idx dat : Byte) : datField (mkWord op idx dat) = dat := by
  ext i hi
  simp only [datField, mkWord, BitVec.getElem_extractLsb', BitVec.getLsbD_append]
  simp [hi]

/-- Every word is built of its three fields (R70). -/
theorem mkWord_fields (w : CommandWord) : mkWord (opField w) (idxField w) (datField w) = w := by
  ext i hi
  simp only [mkWord, opField, idxField, datField, ← BitVec.getLsbD_eq_getElem, BitVec.getLsbD_append,
    BitVec.getLsbD_extractLsb']
  by_cases h8 : i < 8
  · simp [h8]
  · by_cases h16 : i - 8 < 8
    · have e : 8 + (i - 8) = i := by omega
      simp [h8, h16, e]
    · have e : 16 + (i - 8 - 8) = i := by omega
      have h : i - 8 - 8 < 8 := by omega
      simp [h8, h16, e, h]

/-- What a row's decoding answers when it answers a command. -/
theorem decodeRow_legal {reserved c : Bool} {r : IllegalReason} {i j : Instr}
    (h : decodeRow reserved c r i = .legal j) : reserved = false ∧ c = true ∧ j = i := by
  unfold decodeRow at h
  split at h
  · cases h
  · split at h
    · cases h; simp_all
    · cases h

/-- What a row's decoding answers when it refuses the word. -/
theorem decodeRow_illegal {reserved c : Bool} {r q : IllegalReason} {i : Instr}
    (h : decodeRow reserved c r i = .illegal q) : reserved = true ∨ c = false := by
  unfold decodeRow at h
  split at h
  · exact .inl ‹_›
  · split at h
    · cases h
    · right; simpa using ‹¬ c = true›

theorem isIllegal_iff (w : CommandWord) : isIllegal w = true ↔ ∃ r, decodeWord w = .illegal r := by
  unfold isIllegal
  split <;> simp_all

end Sys2Proof
end

