-- ==== Sys2Proof/Laws/Functions.lean ====
section
/-! SUPPORT. The small lemmas of the pure functions (checksum, base64url, frame), so that no proof unfolds them again. -/

namespace Sys2Proof.Machine

/-! Checksum (R123, R124). -/

@[simp] theorem crcFold_nil (r : Crc16) : crcFold r [] = r := rfl
@[simp] theorem crcFold_cons (r : Crc16) (v : Byte) (s : List Byte) : crcFold r (v :: s) = crcFold (crcByte r v) s := rfl
theorem crc16_eq (s : List Byte) : crc16 s = crcFold 0x0000 s := rfl
theorem tab_eq (i : Byte) : tab i = crcByte 0x0000 i := rfl

/-- A bit step is its shift and, when the bit shifted out differs from the message bit, the polynomial (R121). -/
theorem crcBit_eq (r : Crc16) (b : Bool) :
    crcBit r b = (r <<< 1) ^^^ (if r.getLsbD 15 ^^ b then crcPoly else 0) := by
  unfold crcBit
  split <;> simp_all

theorem hiByte_eq (c : Crc16) : hiByte c = (c >>> 8).setWidth 8 := by
  ext k hk; simp [hiByte]

theorem loByte_eq (c : Crc16) : loByte c = c.setWidth 8 := by
  ext k hk; simp [loByte]

/-- A 16-bit value is its two halves, high byte first (R52). -/
theorem hiByte_append_loByte (c : Crc16) : hiByte c ++ loByte c = c := by
  apply BitVec.eq_of_getLsbD_eq
  intro i hi
  simp only [hiByte, loByte, BitVec.getLsbD_append, BitVec.getLsbD_extractLsb']
  by_cases h : i < 8
  · simp [h]
  · simp [h, show 8 + (i - 8) = i by omega, show i - 8 < 8 by omega]

/-! Frame (R52, R161). -/

theorem payload_length (f : FrameBytes) : (payload f).length = 34 := by simp [payload]

theorem withChecksum_get_34 (f : FrameBytes) (c : Crc16) : (withChecksum f c)[34] = hiByte c := by
  simp [withChecksum]

theorem withChecksum_get_35 (f : FrameBytes) (c : Crc16) : (withChecksum f c)[35] = loByte c := by
  simp [withChecksum]

theorem withChecksum_get_lt (f : FrameBytes) (c : Crc16) {i : Nat} (h : i < 34) :
    (withChecksum f c)[i] = f[i] := by
  have h34 : 34 ≠ i := by omega
  have h35 : 35 ≠ i := by omega
  simp [withChecksum, h34, h35]

/-- The checksum covers none of the two cells it is stored in (R161). -/
theorem payload_withChecksum (f : FrameBytes) (c : Crc16) : payload (withChecksum f c) = payload f := by
  apply List.ext_getElem
  · simp [payload]
  · intro i h1 h2
    simp [payload] at h1
    have h34 : 34 ≠ i := by omega
    have h35 : 35 ≠ i := by omega
    simp [payload, withChecksum, h34, h35]

/-! base64url (R144, R145). -/

theorem b64Enc_get (f : FrameBytes) (j : Fin 48) : (b64Enc f)[j] = b64Char (frameSextet f j) := by
  simp [b64Enc]

/-- The decoder's test, cell by cell (R145). -/
theorem text_all_iff (x : TextCells) :
    x.toList.all (fun c => (b64Val c).isSome) = true ↔ ∀ j : Fin 48, (b64Val x[j]).isSome = true := by
  rw [List.all_eq_true]
  constructor
  · intro h j
    exact h _ (by simp)
  · intro h c hc
    obtain ⟨j, hj, rfl⟩ := List.getElem_of_mem hc
    have hj' : j < 48 := by simpa using hj
    simpa using h ⟨j, hj'⟩

theorem b64Dec_of_valid {x : TextCells} (h : ∀ j : Fin 48, (b64Val x[j]).isSome = true) :
    b64Dec x = some (Vector.ofFn (sextetsByte (textValues x))) :=
  if_pos ((text_all_iff x).mpr h)

theorem b64Dec_of_invalid {x : TextCells} (h : ∃ j : Fin 48, b64Val x[j] = none) : b64Dec x = none := by
  refine if_neg fun hx => ?_
  obtain ⟨j, hj⟩ := h
  have := (text_all_iff x).mp hx j
  rw [hj] at this
  cases this

/-- What the decoder can answer: every cell is in the alphabet and the frame is their unpacking, or some cell is not. -/
theorem b64Dec_cases (x : TextCells) :
    ((∀ j : Fin 48, (b64Val x[j]).isSome = true) ∧ b64Dec x = some (Vector.ofFn (sextetsByte (textValues x)))) ∨
    ((∃ j : Fin 48, b64Val x[j] = none) ∧ b64Dec x = none) := by
  by_cases h : ∀ j : Fin 48, (b64Val x[j]).isSome = true
  · exact .inl ⟨h, b64Dec_of_valid h⟩
  · right
    push Not at h
    obtain ⟨j, hj⟩ := h
    have hn : ∃ j : Fin 48, b64Val x[j] = none := ⟨j, by simpa using hj⟩
    exact ⟨hn, b64Dec_of_invalid hn⟩

/-- A group's 24 bits are its four sextets (R144). -/
theorem sextets_join (w : BitVec 24) :
    (((w.extractLsb' 18 6 ++ w.extractLsb' 12 6 : BitVec 12) ++ w.extractLsb' 6 6 : BitVec 18) ++
      w.extractLsb' 0 6 : BitVec 24) = w := by
  apply BitVec.eq_of_getLsbD_eq
  intro i hi
  simp only [BitVec.getLsbD_append, BitVec.getLsbD_extractLsb']
  split
  · simp [*]
  · split
    · rw [show 6 + (i - 6) = i by omega]; simp; omega
    · split
      · rw [show 12 + (i - 6 - 6) = i by omega]; simp; omega
      · rw [show 18 + (i - 6 - 6 - 6) = i by omega]; simp; omega

/-- A group's 24 bits are its three bytes (R145). -/
theorem bytes_join (w : BitVec 24) :
    ((w.extractLsb' 16 8 ++ w.extractLsb' 8 8 : BitVec 16) ++ w.extractLsb' 0 8 : BitVec 24) = w := by
  apply BitVec.eq_of_getLsbD_eq
  intro i hi
  simp only [BitVec.getLsbD_append, BitVec.getLsbD_extractLsb']
  split
  · simp [*]
  · split
    · rw [show 8 + (i - 8) = i by omega]; simp; omega
    · rw [show 16 + (i - 8 - 8) = i by omega]; simp; omega

/-- The text buffer holds a frame exactly when its length register says 48 and the cells decode (R147). -/
theorem textFrame_eq (s : State) : textFrame s = if s.TLEN = 48 then b64Dec s.T else none := rfl

end Sys2Proof.Machine
end

