-- ==== Sys2Proof/Laws/State.lean ====
section
/-! SUPPORT. What each named operation does to each field of the state: one lemma per operation and field, so that no
proof unfolds a record update. -/

namespace Sys2Proof.Machine

variable (s : State)

@[simp] theorem State.setB_B (i : Fin 36) (v : Byte) : (s.setB i v).B = s.B.set i v := rfl
@[simp] theorem State.setB_T (i : Fin 36) (v : Byte) : (s.setB i v).T = s.T := rfl
@[simp] theorem State.setB_TLEN (i : Fin 36) (v : Byte) : (s.setB i v).TLEN = s.TLEN := rfl
@[simp] theorem State.setB_FLAGS (i : Fin 36) (v : Byte) : (s.setB i v).FLAGS = s.FLAGS := rfl
@[simp] theorem State.setB_CRC (i : Fin 36) (v : Byte) : (s.setB i v).CRC = s.CRC := rfl
@[simp] theorem State.setB_STATUS (i : Fin 36) (v : Byte) : (s.setB i v).STATUS = s.STATUS := rfl
@[simp] theorem State.setB_inputs (i : Fin 36) (v : Byte) : (s.setB i v).inputs = s.inputs := rfl
@[simp] theorem State.setB_responses (i : Fin 36) (v : Byte) : (s.setB i v).responses = s.responses := rfl
@[simp] theorem State.setB_resets (i : Fin 36) (v : Byte) : (s.setB i v).resets = s.resets := rfl

@[simp] theorem State.setFrame_B (f : FrameBytes) : (s.setFrame f).B = f := rfl
@[simp] theorem State.setFrame_T (f : FrameBytes) : (s.setFrame f).T = s.T := rfl
@[simp] theorem State.setFrame_TLEN (f : FrameBytes) : (s.setFrame f).TLEN = s.TLEN := rfl
@[simp] theorem State.setFrame_FLAGS (f : FrameBytes) : (s.setFrame f).FLAGS = s.FLAGS := rfl
@[simp] theorem State.setFrame_CRC (f : FrameBytes) : (s.setFrame f).CRC = s.CRC := rfl
@[simp] theorem State.setFrame_STATUS (f : FrameBytes) : (s.setFrame f).STATUS = s.STATUS := rfl
@[simp] theorem State.setFrame_inputs (f : FrameBytes) : (s.setFrame f).inputs = s.inputs := rfl
@[simp] theorem State.setFrame_responses (f : FrameBytes) : (s.setFrame f).responses = s.responses := rfl
@[simp] theorem State.setFrame_resets (f : FrameBytes) : (s.setFrame f).resets = s.resets := rfl

@[simp] theorem State.setT_B (j : Fin 48) (v : Byte) : (s.setT j v).B = s.B := rfl
@[simp] theorem State.setT_T (j : Fin 48) (v : Byte) : (s.setT j v).T = s.T.set j v := rfl
@[simp] theorem State.setT_TLEN (j : Fin 48) (v : Byte) : (s.setT j v).TLEN = s.TLEN := rfl
@[simp] theorem State.setT_FLAGS (j : Fin 48) (v : Byte) : (s.setT j v).FLAGS = s.FLAGS := rfl
@[simp] theorem State.setT_CRC (j : Fin 48) (v : Byte) : (s.setT j v).CRC = s.CRC := rfl
@[simp] theorem State.setT_STATUS (j : Fin 48) (v : Byte) : (s.setT j v).STATUS = s.STATUS := rfl
@[simp] theorem State.setT_inputs (j : Fin 48) (v : Byte) : (s.setT j v).inputs = s.inputs := rfl
@[simp] theorem State.setT_responses (j : Fin 48) (v : Byte) : (s.setT j v).responses = s.responses := rfl
@[simp] theorem State.setT_resets (j : Fin 48) (v : Byte) : (s.setT j v).resets = s.resets := rfl

@[simp] theorem State.setText_B (x : TextCells) : (s.setText x).B = s.B := rfl
@[simp] theorem State.setText_T (x : TextCells) : (s.setText x).T = x := rfl
@[simp] theorem State.setText_TLEN (x : TextCells) : (s.setText x).TLEN = s.TLEN := rfl
@[simp] theorem State.setText_FLAGS (x : TextCells) : (s.setText x).FLAGS = s.FLAGS := rfl
@[simp] theorem State.setText_CRC (x : TextCells) : (s.setText x).CRC = s.CRC := rfl
@[simp] theorem State.setText_STATUS (x : TextCells) : (s.setText x).STATUS = s.STATUS := rfl
@[simp] theorem State.setText_inputs (x : TextCells) : (s.setText x).inputs = s.inputs := rfl
@[simp] theorem State.setText_responses (x : TextCells) : (s.setText x).responses = s.responses := rfl
@[simp] theorem State.setText_resets (x : TextCells) : (s.setText x).resets = s.resets := rfl

@[simp] theorem State.setTLEN_B (v : Byte) : (s.setTLEN v).B = s.B := rfl
@[simp] theorem State.setTLEN_T (v : Byte) : (s.setTLEN v).T = s.T := rfl
@[simp] theorem State.setTLEN_TLEN (v : Byte) : (s.setTLEN v).TLEN = v := rfl
@[simp] theorem State.setTLEN_FLAGS (v : Byte) : (s.setTLEN v).FLAGS = s.FLAGS := rfl
@[simp] theorem State.setTLEN_CRC (v : Byte) : (s.setTLEN v).CRC = s.CRC := rfl
@[simp] theorem State.setTLEN_STATUS (v : Byte) : (s.setTLEN v).STATUS = s.STATUS := rfl
@[simp] theorem State.setTLEN_inputs (v : Byte) : (s.setTLEN v).inputs = s.inputs := rfl
@[simp] theorem State.setTLEN_responses (v : Byte) : (s.setTLEN v).responses = s.responses := rfl
@[simp] theorem State.setTLEN_resets (v : Byte) : (s.setTLEN v).resets = s.resets := rfl

@[simp] theorem State.setFLAGS_B (bnc tst : Bool) : (s.setFLAGS bnc tst).B = s.B := rfl
@[simp] theorem State.setFLAGS_T (bnc tst : Bool) : (s.setFLAGS bnc tst).T = s.T := rfl
@[simp] theorem State.setFLAGS_TLEN (bnc tst : Bool) : (s.setFLAGS bnc tst).TLEN = s.TLEN := rfl
@[simp] theorem State.setFLAGS_FLAGS (bnc tst : Bool) : (s.setFLAGS bnc tst).FLAGS = packFlags bnc tst := rfl
@[simp] theorem State.setFLAGS_CRC (bnc tst : Bool) : (s.setFLAGS bnc tst).CRC = s.CRC := rfl
@[simp] theorem State.setFLAGS_STATUS (bnc tst : Bool) : (s.setFLAGS bnc tst).STATUS = s.STATUS := rfl
@[simp] theorem State.setFLAGS_inputs (bnc tst : Bool) : (s.setFLAGS bnc tst).inputs = s.inputs := rfl
@[simp] theorem State.setFLAGS_responses (bnc tst : Bool) : (s.setFLAGS bnc tst).responses = s.responses := rfl
@[simp] theorem State.setFLAGS_resets (bnc tst : Bool) : (s.setFLAGS bnc tst).resets = s.resets := rfl

@[simp] theorem State.setCRC_B (v : Crc16) : (s.setCRC v).B = s.B := rfl
@[simp] theorem State.setCRC_T (v : Crc16) : (s.setCRC v).T = s.T := rfl
@[simp] theorem State.setCRC_TLEN (v : Crc16) : (s.setCRC v).TLEN = s.TLEN := rfl
@[simp] theorem State.setCRC_FLAGS (v : Crc16) : (s.setCRC v).FLAGS = s.FLAGS := rfl
@[simp] theorem State.setCRC_CRC (v : Crc16) : (s.setCRC v).CRC = v := rfl
@[simp] theorem State.setCRC_STATUS (v : Crc16) : (s.setCRC v).STATUS = s.STATUS := rfl
@[simp] theorem State.setCRC_inputs (v : Crc16) : (s.setCRC v).inputs = s.inputs := rfl
@[simp] theorem State.setCRC_responses (v : Crc16) : (s.setCRC v).responses = s.responses := rfl
@[simp] theorem State.setCRC_resets (v : Crc16) : (s.setCRC v).resets = s.resets := rfl

@[simp] theorem State.setStatus_B (st : Status) : (s.setStatus st).B = s.B := rfl
@[simp] theorem State.setStatus_T (st : Status) : (s.setStatus st).T = s.T := rfl
@[simp] theorem State.setStatus_TLEN (st : Status) : (s.setStatus st).TLEN = s.TLEN := rfl
@[simp] theorem State.setStatus_FLAGS (st : Status) : (s.setStatus st).FLAGS = s.FLAGS := rfl
@[simp] theorem State.setStatus_CRC (st : Status) : (s.setStatus st).CRC = s.CRC := rfl
@[simp] theorem State.setStatus_STATUS (st : Status) : (s.setStatus st).STATUS = st.code := rfl
@[simp] theorem State.setStatus_inputs (st : Status) : (s.setStatus st).inputs = s.inputs := rfl
@[simp] theorem State.setStatus_responses (st : Status) : (s.setStatus st).responses = s.responses := rfl
@[simp] theorem State.setStatus_resets (st : Status) : (s.setStatus st).resets = s.resets := rfl

@[simp] theorem State.respond_B (st : Status) (d : Byte) : (s.respond st d).B = s.B := rfl
@[simp] theorem State.respond_T (st : Status) (d : Byte) : (s.respond st d).T = s.T := rfl
@[simp] theorem State.respond_TLEN (st : Status) (d : Byte) : (s.respond st d).TLEN = s.TLEN := rfl
@[simp] theorem State.respond_FLAGS (st : Status) (d : Byte) : (s.respond st d).FLAGS = s.FLAGS := rfl
@[simp] theorem State.respond_CRC (st : Status) (d : Byte) : (s.respond st d).CRC = s.CRC := rfl
@[simp] theorem State.respond_STATUS (st : Status) (d : Byte) : (s.respond st d).STATUS = s.STATUS := rfl
@[simp] theorem State.respond_inputs (st : Status) (d : Byte) : (s.respond st d).inputs = s.inputs := rfl
@[simp] theorem State.respond_responses (st : Status) (d : Byte) : (s.respond st d).responses = s.responses ++ [responseWord st d] := rfl
@[simp] theorem State.respond_resets (st : Status) (d : Byte) : (s.respond st d).resets = s.resets := rfl

@[simp] theorem State.complete_B (st : Status) : (s.complete st).B = s.B := rfl
@[simp] theorem State.complete_T (st : Status) : (s.complete st).T = s.T := rfl
@[simp] theorem State.complete_TLEN (st : Status) : (s.complete st).TLEN = s.TLEN := rfl
@[simp] theorem State.complete_FLAGS (st : Status) : (s.complete st).FLAGS = s.FLAGS := rfl
@[simp] theorem State.complete_CRC (st : Status) : (s.complete st).CRC = s.CRC := rfl
@[simp] theorem State.complete_STATUS (st : Status) : (s.complete st).STATUS = st.code := rfl
@[simp] theorem State.complete_inputs (st : Status) : (s.complete st).inputs = s.inputs := rfl
@[simp] theorem State.complete_responses (st : Status) : (s.complete st).responses = s.responses ++ [responseWord st 0x00] := rfl
@[simp] theorem State.complete_resets (st : Status) : (s.complete st).resets = s.resets := rfl

@[simp] theorem State.raise_B (st : Status) : (s.raise st).B = s.B := rfl
@[simp] theorem State.raise_T (st : Status) : (s.raise st).T = s.T := rfl
@[simp] theorem State.raise_TLEN (st : Status) : (s.raise st).TLEN = s.TLEN := rfl
@[simp] theorem State.raise_FLAGS (st : Status) : (s.raise st).FLAGS = s.FLAGS := rfl
@[simp] theorem State.raise_CRC (st : Status) : (s.raise st).CRC = s.CRC := rfl
@[simp] theorem State.raise_STATUS (st : Status) : (s.raise st).STATUS = st.code := rfl
@[simp] theorem State.raise_inputs (st : Status) : (s.raise st).inputs = s.inputs := rfl
@[simp] theorem State.raise_responses (st : Status) : (s.raise st).responses = s.responses ++ [responseWord st 0x00] := rfl
@[simp] theorem State.raise_resets (st : Status) : (s.raise st).resets = s.resets := rfl

@[simp] theorem State.illegal_B : (s.illegal).B = s.B := rfl
@[simp] theorem State.illegal_T : (s.illegal).T = s.T := rfl
@[simp] theorem State.illegal_TLEN : (s.illegal).TLEN = s.TLEN := rfl
@[simp] theorem State.illegal_FLAGS : (s.illegal).FLAGS = s.FLAGS := rfl
@[simp] theorem State.illegal_CRC : (s.illegal).CRC = s.CRC := rfl
@[simp] theorem State.illegal_STATUS : (s.illegal).STATUS = Status.errIllegal.code := rfl
@[simp] theorem State.illegal_inputs : (s.illegal).inputs = s.inputs := rfl
@[simp] theorem State.illegal_responses : (s.illegal).responses = s.responses ++ [responseWord .errIllegal 0x00] := rfl
@[simp] theorem State.illegal_resets : (s.illegal).resets = s.resets := rfl

@[simp] theorem State.answer_B (d : Byte) : (s.answer d).B = s.B := rfl
@[simp] theorem State.answer_T (d : Byte) : (s.answer d).T = s.T := rfl
@[simp] theorem State.answer_TLEN (d : Byte) : (s.answer d).TLEN = s.TLEN := rfl
@[simp] theorem State.answer_FLAGS (d : Byte) : (s.answer d).FLAGS = s.FLAGS := rfl
@[simp] theorem State.answer_CRC (d : Byte) : (s.answer d).CRC = s.CRC := rfl
@[simp] theorem State.answer_STATUS (d : Byte) : (s.answer d).STATUS = s.STATUS := rfl
@[simp] theorem State.answer_inputs (d : Byte) : (s.answer d).inputs = s.inputs := rfl
@[simp] theorem State.answer_responses (d : Byte) : (s.answer d).responses = s.responses ++ [responseWord .ok d] := rfl
@[simp] theorem State.answer_resets (d : Byte) : (s.answer d).resets = s.resets := rfl

@[simp] theorem State.afterReset_B : (s.afterReset).B = resetFrame (s.resets + 1) := by simp only [State.afterReset, Status.code]
@[simp] theorem State.afterReset_T : (s.afterReset).T = resetText (s.resets + 1) := by simp only [State.afterReset, Status.code]
@[simp] theorem State.afterReset_TLEN : (s.afterReset).TLEN = 0x00 := by simp only [State.afterReset, Status.code]
@[simp] theorem State.afterReset_FLAGS : (s.afterReset).FLAGS = 0x00 := by simp only [State.afterReset, Status.code]
@[simp] theorem State.afterReset_CRC : (s.afterReset).CRC = 0x0000 := by simp only [State.afterReset, Status.code]
@[simp] theorem State.afterReset_STATUS : (s.afterReset).STATUS = 0x00 := by simp only [State.afterReset, Status.code]
@[simp] theorem State.afterReset_inputs : (s.afterReset).inputs = s.inputs := by simp only [State.afterReset, Status.code]
@[simp] theorem State.afterReset_responses : (s.afterReset).responses = s.responses := by simp only [State.afterReset, Status.code]
@[simp] theorem State.afterReset_resets : (s.afterReset).resets = s.resets + 1 := by simp only [State.afterReset, Status.code]

@[simp] theorem State.present_B (w : CommandWord) : (s.present w).B = s.B := rfl
@[simp] theorem State.present_T (w : CommandWord) : (s.present w).T = s.T := rfl
@[simp] theorem State.present_TLEN (w : CommandWord) : (s.present w).TLEN = s.TLEN := rfl
@[simp] theorem State.present_FLAGS (w : CommandWord) : (s.present w).FLAGS = s.FLAGS := rfl
@[simp] theorem State.present_CRC (w : CommandWord) : (s.present w).CRC = s.CRC := rfl
@[simp] theorem State.present_STATUS (w : CommandWord) : (s.present w).STATUS = s.STATUS := rfl
@[simp] theorem State.present_inputs (w : CommandWord) : (s.present w).inputs = .command w :: s.inputs := rfl
@[simp] theorem State.present_responses (w : CommandWord) : (s.present w).responses = s.responses := rfl
@[simp] theorem State.present_resets (w : CommandWord) : (s.present w).resets = s.resets := rfl

@[simp] theorem State.reset_B : State.reset.B = resetFrame 0 := rfl
@[simp] theorem State.reset_T : State.reset.T = resetText 0 := rfl
@[simp] theorem State.reset_TLEN : State.reset.TLEN = 0x00 := rfl
@[simp] theorem State.reset_FLAGS : State.reset.FLAGS = 0x00 := rfl
@[simp] theorem State.reset_CRC : State.reset.CRC = 0x0000 := rfl
@[simp] theorem State.reset_STATUS : State.reset.STATUS = 0x00 := rfl
@[simp] theorem State.reset_inputs : State.reset.inputs = [] := rfl
@[simp] theorem State.reset_responses : State.reset.responses = [] := rfl
@[simp] theorem State.reset_resets : State.reset.resets = 0 := rfl

/-! The tuple of R20 does not see the port: presenting a word changes none of the block's own fields (above), and the
accessors read the fields they name. -/

theorem State.getB_eq (i : Fin 36) : s.getB i = s.B[i] := rfl
theorem State.getT_eq (j : Fin 48) : s.getT j = s.T[j] := rfl
theorem State.getFLAGS_eq : s.getFLAGS = s.FLAGS &&& 0x03 := rfl

/-- A read after a write to the same cell gives the value written. -/
theorem State.getB_setB_same (i : Fin 36) (v : Byte) : (s.setB i v).getB i = v := by
  simp [State.getB, State.setB]

/-- A write to one cell leaves every other cell alone. -/
theorem State.getB_setB_other {i k : Fin 36} (h : k ≠ i) (v : Byte) : (s.setB i v).getB k = s.getB k := by
  have h' : i.val ≠ k.val := fun e => h (Fin.ext e.symm)
  simp [State.getB, State.setB, h']

theorem State.getT_setT_same (j : Fin 48) (v : Byte) : (s.setT j v).getT j = v := by
  simp [State.getT, State.setT]

theorem State.getT_setT_other {j k : Fin 48} (h : k ≠ j) (v : Byte) : (s.setT j v).getT k = s.getT k := by
  have h' : j.val ≠ k.val := fun e => h (Fin.ext e.symm)
  simp [State.getT, State.setT, h']

/-- The reset contents of a cell are the free value of that cell (R37). -/
theorem resetFrame_get (n : Nat) (i : Fin 36) : (resetFrame n)[i] = Config.bReset n i := by
  simp [resetFrame]

theorem resetText_get (n : Nat) (j : Fin 48) : (resetText n)[j] = Config.tReset n j := by
  simp [resetText]

end Sys2Proof.Machine
end

