-- ==== Sys2Proof/Laws/Ops.lean ====
section
/-! SUPPORT. What each shared operation can answer, said once: the operand forms, the statuses and responses, taking an
event from the port. -/

namespace Sys2Proof.Machine

/-! Operands. -/

theorem frameIndex_of_lt {idx : Byte} (h : idx.toNat < 36) : frameIndex idx = some ⟨idx.toNat, h⟩ := by
  simp [frameIndex, h]

theorem frameIndex_of_ge {idx : Byte} (h : 36 ≤ idx.toNat) : frameIndex idx = none := by
  simp [frameIndex, Nat.not_lt.mpr h]

theorem frameIndex_some {idx : Byte} {i : Fin 36} (h : frameIndex idx = some i) : i.val = idx.toNat := by
  unfold frameIndex at h
  split at h
  · cases h; rfl
  · cases h

theorem textIndex_of_lt {idx : Byte} (h : idx.toNat < 48) : textIndex idx = some ⟨idx.toNat, h⟩ := by
  simp [textIndex, h]

theorem textIndex_of_ge {idx : Byte} (h : 48 ≤ idx.toNat) : textIndex idx = none := by
  simp [textIndex, Nat.not_lt.mpr h]

theorem textIndex_some {idx : Byte} {j : Fin 48} (h : textIndex idx = some j) : j.val = idx.toNat := by
  unfold textIndex at h
  split at h
  · cases h; rfl
  · cases h

/-- WRFLAGS takes the operands 0 to 3 and no other (R106). -/
theorem flagsOperand_eq : ∀ dat : Byte,
    flagsOperand dat = if dat.toNat ≤ 3 then some (dat.getLsbD 0, dat.getLsbD 1) else none := by decide

/-! Statuses, responses, flags. -/

@[simp] theorem Status.code_ok : Status.ok.code = 0x00#8 := rfl
@[simp] theorem Status.code_errFormat : Status.errFormat.code = 0x01#8 := rfl
@[simp] theorem Status.code_errChecksum : Status.errChecksum.code = 0x02#8 := rfl
@[simp] theorem Status.code_errTag : Status.errTag.code = 0x03#8 := rfl
@[simp] theorem Status.code_errIllegal : Status.errIllegal.code = 0x04#8 := rfl

theorem responseWord_eq (st : Status) (d : Byte) : responseWord st d = st.code ++ d := rfl

theorem responseStatus_append (c d : Byte) : responseStatus (c ++ d) = c := by
  ext i hi
  simp only [responseStatus, BitVec.getElem_extractLsb', BitVec.getLsbD_append]
  simp [hi]

theorem responseData_append (c d : Byte) : responseData (c ++ d) = d := by
  ext i hi
  simp only [responseData, BitVec.getElem_extractLsb', BitVec.getLsbD_append]
  simp [hi]

@[simp] theorem responseStatus_responseWord (st : Status) (d : Byte) : responseStatus (responseWord st d) = st.code :=
  responseStatus_append st.code d

@[simp] theorem responseData_responseWord (st : Status) (d : Byte) : responseData (responseWord st d) = d :=
  responseData_append st.code d

/-- The bits of the flag register are the two flags it was given (R24). -/
@[simp] theorem bncOf_packFlags (bnc tst : Bool) : bncOf (packFlags bnc tst) = bnc := by
  cases bnc <;> cases tst <;> rfl

@[simp] theorem tstOf_packFlags (bnc tst : Bool) : tstOf (packFlags bnc tst) = tst := by
  cases bnc <;> cases tst <;> rfl

/-! The port. -/

theorem takeInput_nil {s : State} (h : s.inputs = []) : s.takeInput = none := by
  simp [State.takeInput, h]

theorem takeInput_cons {s : State} {e : PortEvent} {rest : List PortEvent} (h : s.inputs = e :: rest) :
    s.takeInput = some (e, { s with inputs := rest }) := by
  simp [State.takeInput, h]

end Sys2Proof.Machine
end

