-- ==== Sys2Proof/Laws/Exec.lean ====
section
/-! SUPPORT. What the dispatch and the step can do, said once: which state each command answers, and what a step does
with each kind of event. -/

namespace Sys2Proof.Machine

/-- Every command goes on: no arm of the dispatch faults or is refused. -/
theorem exec_next (i : Instr) (s : State) : ∃ t, exec i s = .next t := by
  cases i <;> exact ⟨_, rfl⟩

/-- Every word goes on, legal or not. -/
theorem execWord_next (w : CommandWord) (s : State) : ∃ t, execWord w s = .next t := by
  unfold execWord
  split
  · exact exec_next _ s
  · exact ⟨_, rfl⟩

/-- What WRB can do: the cell is written, or the index names none and the effect is that of an illegal word. -/
theorem execWrb_cases (idx dat : Byte) (s : State) :
    (∃ k, frameIndex idx = some k ∧ execWrb idx dat s = .next ((s.setB k dat).complete .ok)) ∨
    (frameIndex idx = none ∧ execWrb idx dat s = .next s.illegal) := by
  unfold execWrb
  cases h : frameIndex idx <;> simp

/-- What RDB can do. -/
theorem execRdb_cases (idx : Byte) (s : State) :
    (∃ k, frameIndex idx = some k ∧ execRdb idx s = .next (s.answer (s.getB k))) ∨
    (frameIndex idx = none ∧ execRdb idx s = .next s.illegal) := by
  unfold execRdb
  cases h : frameIndex idx <;> simp

/-- What WRT can do. -/
theorem execWrt_cases (idx dat : Byte) (s : State) :
    (∃ k, textIndex idx = some k ∧ execWrt idx dat s = .next ((s.setT k dat).complete .ok)) ∨
    (textIndex idx = none ∧ execWrt idx dat s = .next s.illegal) := by
  unfold execWrt
  cases h : textIndex idx <;> simp

/-- What RDT can do. -/
theorem execRdt_cases (idx : Byte) (s : State) :
    (∃ k, textIndex idx = some k ∧ execRdt idx s = .next (s.answer (s.getT k))) ∨
    (textIndex idx = none ∧ execRdt idx s = .next s.illegal) := by
  unfold execRdt
  cases h : textIndex idx <;> simp

/-- What WRFLAGS can do. -/
theorem execWrflags_cases (dat : Byte) (s : State) :
    (∃ bnc tst, flagsOperand dat = some (bnc, tst) ∧
      execWrflags dat s = .next ((s.setFLAGS bnc tst).complete .ok)) ∨
    (flagsOperand dat = none ∧ execWrflags dat s = .next s.illegal) := by
  unfold execWrflags
  cases h : flagsOperand dat with
  | none => exact .inr ⟨rfl, rfl⟩
  | some p => exact .inl ⟨p.1, p.2, rfl, rfl⟩

/-- What CKCHK can do: the checksum was right and is in `CRC`, or the error was raised. -/
theorem ckchk_cases (s : State) :
    (payloadChecksum s.B = storedChecksum s.B ∧ ckchk s = (s.setCRC (payloadChecksum s.B)).complete .ok) ∨
    (payloadChecksum s.B ≠ storedChecksum s.B ∧ ckchk s = s.raise .errChecksum) := by
  by_cases h : payloadChecksum s.B = storedChecksum s.B <;> simp [ckchk, h]

/-- What B64DEC can do. -/
theorem b64decode_cases (s : State) :
    (∃ f, textFrame s = some f ∧ b64decode s = (s.setFrame f).complete .ok) ∨
    (textFrame s = none ∧ b64decode s = s.raise .errFormat) := by
  unfold b64decode
  cases h : textFrame s <;> simp

/-- What TAGUNPACK can do. -/
theorem tagunpack_cases (s : State) :
    (∃ bnc tst, flagsOf (s.getB 0) = some (bnc, tst) ∧ tagunpack s = (s.setFLAGS bnc tst).complete .ok) ∨
    (flagsOf (s.getB 0) = none ∧ tagunpack s = s.raise .errTag) := by
  unfold tagunpack
  cases h : flagsOf (s.getB 0) with
  | none => exact .inr ⟨rfl, rfl⟩
  | some p => exact .inl ⟨p.1, p.2, rfl, rfl⟩

/-- What DECODE can do: each of the three errors under its own condition, in order, or the commit (R183, R186). -/
theorem decodeText_cases (s : State) :
    (textFrame s = none ∧ decodeText s = s.raise .errFormat) ∨
    (∃ f, textFrame s = some f ∧ payloadChecksum f ≠ storedChecksum f ∧ decodeText s = s.raise .errChecksum) ∨
    (∃ f, textFrame s = some f ∧ payloadChecksum f = storedChecksum f ∧ flagsOf f[0] = none ∧
      decodeText s = s.raise .errTag) ∨
    (∃ f bnc tst, textFrame s = some f ∧ payloadChecksum f = storedChecksum f ∧ flagsOf f[0] = some (bnc, tst) ∧
      decodeText s = (((s.setFrame f).setCRC (payloadChecksum f)).setFLAGS bnc tst).complete .ok) := by
  unfold decodeText
  cases hf : textFrame s with
  | none => simp
  | some f =>
    by_cases hc : payloadChecksum f = storedChecksum f
    · cases ht : flagsOf f[0] with
      | none => simp [hc, ht]
      | some p => exact .inr (.inr (.inr ⟨f, p.1, p.2, rfl, hc, ht, by simp [hc, ht]⟩))
    · simp [hc]

/-- A legal word runs its command. -/
theorem execWord_legal {w : CommandWord} {i : Instr} (h : decodeWord w = .legal i) (s : State) :
    execWord w s = exec i s := by
  simp [execWord, h]

/-- An illegal word has the one effect of R80. -/
theorem execWord_illegal {w : CommandWord} (h : isIllegal w = true) (s : State) :
    execWord w s = .next s.illegal := by
  obtain ⟨r, hr⟩ := (isIllegal_iff w).mp h
  simp [execWord, hr]

/-! The states the commands without a failure leave, field by field, so that no proof unfolds a computed frame. -/

theorem ckgen_fields (s : State) :
    (ckgen s).B = withChecksum s.B (payloadChecksum s.B) ∧ (ckgen s).CRC = payloadChecksum s.B ∧ (ckgen s).T = s.T ∧
    (ckgen s).TLEN = s.TLEN ∧ (ckgen s).FLAGS = s.FLAGS ∧ (ckgen s).STATUS = 0x00 ∧ Responds s (ckgen s) 0x0000 := by
  refine ⟨?_, ?_, ?_, ?_, ?_, ?_, ?_, ?_, ?_⟩ <;> simp [ckgen, withChecksum, State.setB, responseWord]

theorem b64encode_fields (s : State) :
    (b64encode s).T = b64Enc s.B ∧ (b64encode s).TLEN = 48 ∧ (b64encode s).B = s.B ∧ (b64encode s).CRC = s.CRC ∧
    (b64encode s).FLAGS = s.FLAGS ∧ (b64encode s).STATUS = 0x00 ∧ Responds s (b64encode s) 0x0000 := by
  refine ⟨?_, ?_, ?_, ?_, ?_, ?_, ?_, ?_, ?_⟩ <;> simp [b64encode, responseWord]

theorem tagpack_fields (s : State) :
    (tagpack s).B = s.B.set 0 (tagOf (bncOf s.FLAGS) (tstOf s.FLAGS)) ∧ (tagpack s).T = s.T ∧
    (tagpack s).TLEN = s.TLEN ∧ (tagpack s).FLAGS = s.FLAGS ∧ (tagpack s).CRC = s.CRC ∧ (tagpack s).STATUS = 0x00 ∧
    Responds s (tagpack s) 0x0000 := by
  refine ⟨?_, ?_, ?_, ?_, ?_, ?_, ?_, ?_, ?_⟩ <;> simp [tagpack, responseWord, State.setB]

theorem encodeFrame_fields (s : State) :
    (encodeFrame s).B = builtFrame s ∧ (encodeFrame s).CRC = payloadChecksum (builtFrame s) ∧
    (encodeFrame s).T = b64Enc (builtFrame s) ∧ (encodeFrame s).TLEN = 48 ∧ (encodeFrame s).FLAGS = s.FLAGS ∧
    (encodeFrame s).STATUS = 0x00 ∧ Responds s (encodeFrame s) 0x0000 := by
  refine ⟨?_, ?_, ?_, ?_, ?_, ?_, ?_, ?_, ?_⟩ <;> simp [encodeFrame, responseWord]

/-- What any command can do. An `RD*` answers a value and changes nothing of the block; a completing command ends with
`OK` in `STATUS` and the response; or an error is raised, by a well-formed command only one of R210's table. -/
theorem exec_cases (i : Instr) (s : State) :
    (∃ d, isRead i = true ∧ exec i s = .next (s.answer d) ∧ (i.wf = true → d = readValue s i)) ∨
    (isRead i = false ∧ ∃ u : State, exec i s = .next (u.complete .ok) ∧ u.responses = s.responses ∧
      u.inputs = s.inputs ∧ u.resets = s.resets ∧ (s.FLAGS &&& 0xFC = 0 → u.FLAGS &&& 0xFC = 0)) ∨
    (∃ e, exec i s = .next (s.raise e) ∧ (i.wf = true → isRead i = false ∧
      ((e = .errFormat ∧ (i = .b64dec ∨ i = .decode)) ∨ (e = .errChecksum ∧ (i = .ckchk ∨ i = .decode)) ∨
        (e = .errTag ∧ (i = .tagunpack ∨ i = .decode))))) := by
  have hp : ∀ b c, packFlags b c &&& 0xFC = 0 := by decide
  have tabeq : ∀ i : Byte, tab i = crctab i := by decide +kernel
  cases i
  case wrb =>
    rcases execWrb_cases _ _ s with ⟨k, -, h⟩ | ⟨hn, h⟩
    · exact .inr (.inl ⟨rfl, _, h, rfl, rfl, rfl, id⟩)
    · refine .inr (.inr ⟨_, h, fun hw => ?_⟩)
      simp [Instr.wf] at hw
      rw [frameIndex_of_lt (by omega)] at hn; cases hn
  case rdb =>
    rcases execRdb_cases _ s with ⟨k, hk, h⟩ | ⟨hn, h⟩
    · refine .inl ⟨_, rfl, h, fun _ => ?_⟩
      have := frameIndex_some hk
      simp [readValue, State.getB, ← this]
    · refine .inr (.inr ⟨_, h, fun hw => ?_⟩)
      simp [Instr.wf] at hw
      rw [frameIndex_of_lt (by omega)] at hn; cases hn
  case wrt =>
    rcases execWrt_cases _ _ s with ⟨k, -, h⟩ | ⟨hn, h⟩
    · exact .inr (.inl ⟨rfl, _, h, rfl, rfl, rfl, id⟩)
    · refine .inr (.inr ⟨_, h, fun hw => ?_⟩)
      simp [Instr.wf] at hw
      rw [textIndex_of_lt (by omega)] at hn; cases hn
  case rdt =>
    rcases execRdt_cases _ s with ⟨k, hk, h⟩ | ⟨hn, h⟩
    · refine .inl ⟨_, rfl, h, fun _ => ?_⟩
      have := textIndex_some hk
      simp [readValue, State.getT, ← this]
    · refine .inr (.inr ⟨_, h, fun hw => ?_⟩)
      simp [Instr.wf] at hw
      rw [textIndex_of_lt (by omega)] at hn; cases hn
  case wrflags =>
    rcases execWrflags_cases _ s with ⟨b, c, -, h⟩ | ⟨hn, h⟩
    · exact .inr (.inl ⟨rfl, _, h, rfl, rfl, rfl, fun _ => hp b c⟩)
    · refine .inr (.inr ⟨_, h, fun hw => ?_⟩)
      simp [Instr.wf] at hw
      rw [flagsOperand_eq, if_pos (by omega)] at hn; cases hn
  case ckchk =>
    rcases ckchk_cases s with ⟨-, h⟩ | ⟨-, h⟩
    · exact .inr (.inl ⟨rfl, _, congrArg Host.Outcome.next h, rfl, rfl, rfl, id⟩)
    · exact .inr (.inr ⟨_, congrArg Host.Outcome.next h, fun _ => ⟨rfl, by simp⟩⟩)
  case b64dec =>
    rcases b64decode_cases s with ⟨f, -, h⟩ | ⟨-, h⟩
    · exact .inr (.inl ⟨rfl, _, congrArg Host.Outcome.next h, rfl, rfl, rfl, id⟩)
    · exact .inr (.inr ⟨_, congrArg Host.Outcome.next h, fun _ => ⟨rfl, by simp⟩⟩)
  case tagunpack =>
    rcases tagunpack_cases s with ⟨_, _, -, h⟩ | ⟨-, h⟩
    · exact .inr (.inl ⟨rfl, _, congrArg Host.Outcome.next h, rfl, rfl, rfl, fun _ => hp _ _⟩)
    · exact .inr (.inr ⟨_, congrArg Host.Outcome.next h, fun _ => ⟨rfl, by simp⟩⟩)
  case decode =>
    rcases decodeText_cases s with ⟨-, h⟩ | ⟨f, -, -, h⟩ | ⟨f, -, -, -, h⟩ | ⟨f, b, c, -, -, -, h⟩
    · exact .inr (.inr ⟨_, congrArg Host.Outcome.next h, fun _ => ⟨rfl, by simp⟩⟩)
    · exact .inr (.inr ⟨_, congrArg Host.Outcome.next h, fun _ => ⟨rfl, by simp⟩⟩)
    · exact .inr (.inr ⟨_, congrArg Host.Outcome.next h, fun _ => ⟨rfl, by simp⟩⟩)
    · exact .inr (.inl ⟨rfl, _, congrArg Host.Outcome.next h, rfl, rfl, rfl, fun _ => hp _ _⟩)
  case rdlen => exact .inl ⟨_, rfl, rfl, fun _ => rfl⟩
  case rdflags => exact .inl ⟨_, rfl, rfl, fun _ => rfl⟩
  case rdstatus => exact .inl ⟨_, rfl, rfl, fun _ => rfl⟩
  case rdcrch => exact .inl ⟨_, rfl, rfl, fun _ => hiByte_eq _⟩
  case rdcrcl => exact .inl ⟨_, rfl, rfl, fun _ => loByte_eq _⟩
  case rdtabh => exact .inl ⟨_, rfl, rfl, fun _ => by rw [hiByte_eq, tabeq]; rfl⟩
  case rdtabl => exact .inl ⟨_, rfl, rfl, fun _ => by rw [loByte_eq, tabeq]; rfl⟩
  case encode => exact .inr (.inl ⟨rfl, _, rfl, by simp, by simp, by simp, by simp⟩)
  case ckgen => exact .inr (.inl ⟨rfl, _, rfl, by simp, by simp, by simp, by simp⟩)
  case b64enc => exact .inr (.inl ⟨rfl, _, rfl, by simp, by simp, by simp, by simp⟩)
  case tagpack => exact .inr (.inl ⟨rfl, _, rfl, by simp, by simp, by simp, by simp⟩)
  all_goals exact .inr (.inl ⟨rfl, _, rfl, rfl, rfl, rfl, id⟩)

end Sys2Proof.Machine
end

