-- ==== Sys2Proof/Laws/PerInstr.lean ====
section
/-! SUPPORT. Statements made per instruction: the word the encoder gives for a command selects the command's own row of
the opcode table, `W & mask == match` (spec/30_encoding.md R76), whatever its operands. -/

namespace Sys2Proof.Laws.RowMatch

/-- The encoded word lies in the command's row of R76. -/
def Statement (i : Instr) : Prop := encode i &&& (matchMask i).2 = (matchMask i).1

/-- A mask that is a full byte or nothing in each field acts field by field. -/
theorem mkWord_and (a b c p q r : Byte) : mkWord a b c &&& mkWord p q r = mkWord (a &&& p) (b &&& q) (c &&& r) := by
  ext i hi
  simp only [mkWord, ← BitVec.getLsbD_eq_getElem, BitVec.getLsbD_and, BitVec.getLsbD_append]
  by_cases h8 : i < 8
  · simp [h8]
  · by_cases h16 : i - 8 < 8 <;> simp [h8, h16]

theorem and_none (x : Byte) : x &&& 0x00 = 0x00 := BitVec.and_zero

theorem mask_x : (0xFF0000 : CommandWord) = mkWord 0xFF 0x00 0x00 := by decide
theorem mask_i : (0xFF00FF : CommandWord) = mkWord 0xFF 0x00 0xFF := by decide
theorem mask_d : (0xFFFF00 : CommandWord) = mkWord 0xFF 0xFF 0x00 := by decide

theorem wrb (idx dat : Byte) : Statement (.wrb idx dat) := by
  simp only [Statement, Sys2Proof.encode, matchMask, mask_x, mkWord_and, and_none]; decide
theorem rdb (idx : Byte) : Statement (.rdb idx) := by
  simp only [Statement, Sys2Proof.encode, matchMask, mask_i, mkWord_and, and_none]; decide
theorem wrt (idx dat : Byte) : Statement (.wrt idx dat) := by
  simp only [Statement, Sys2Proof.encode, matchMask, mask_x, mkWord_and, and_none]; decide
theorem rdt (idx : Byte) : Statement (.rdt idx) := by
  simp only [Statement, Sys2Proof.encode, matchMask, mask_i, mkWord_and, and_none]; decide
theorem wrlen (dat : Byte) : Statement (.wrlen dat) := by
  simp only [Statement, Sys2Proof.encode, matchMask, mask_d, mkWord_and, and_none]; decide
theorem rdlen : Statement .rdlen := by unfold Statement; decide
theorem wrflags (dat : Byte) : Statement (.wrflags dat) := by
  simp only [Statement, Sys2Proof.encode, matchMask, mask_d, mkWord_and, and_none]; decide
theorem rdflags : Statement .rdflags := by unfold Statement; decide
theorem rdstatus : Statement .rdstatus := by unfold Statement; decide
theorem rdcrch : Statement .rdcrch := by unfold Statement; decide
theorem rdcrcl : Statement .rdcrcl := by unfold Statement; decide
theorem rdtabh (idx : Byte) : Statement (.rdtabh idx) := by
  simp only [Statement, Sys2Proof.encode, matchMask, mask_i, mkWord_and, and_none]; decide
theorem rdtabl (idx : Byte) : Statement (.rdtabl idx) := by
  simp only [Statement, Sys2Proof.encode, matchMask, mask_i, mkWord_and, and_none]; decide
theorem crcinit : Statement .crcinit := by unfold Statement; decide
theorem crcbyte (dat : Byte) : Statement (.crcbyte dat) := by
  simp only [Statement, Sys2Proof.encode, matchMask, mask_d, mkWord_and, and_none]; decide
theorem ckgen : Statement .ckgen := by unfold Statement; decide
theorem ckchk : Statement .ckchk := by unfold Statement; decide
theorem b64enc : Statement .b64enc := by unfold Statement; decide
theorem b64dec : Statement .b64dec := by unfold Statement; decide
theorem tagpack : Statement .tagpack := by unfold Statement; decide
theorem tagunpack : Statement .tagunpack := by unfold Statement; decide
theorem encode : Statement .encode := by unfold Statement; decide
theorem decode : Statement .decode := by unfold Statement; decide

end Sys2Proof.Laws.RowMatch
end

