-- ==== Sys2Proof/Laws/Procedures.lean ====
section
/-! SUPPORT. Presenting a command to the block and running a list of commands: what the host procedures are built of. -/

namespace Sys2Proof.Machine

/-- A presented word is what the next step executes, on the state it was presented to (R12, R62). -/
theorem step_present (s : State) (w : CommandWord) : step (s.present w) = execWord w s := rfl

/-- The host's question and the answer, for a command whose next state and response are known. -/
theorem ask_of_exec {s t : State} {w : CommandWord} {i : Instr} {p : ResponseWord} (hd : decodeWord w = .legal i)
    (h : exec i s = .next t) (hr : t.responses = s.responses ++ [p]) : ask s w = (t, p) := by
  unfold ask
  rw [step_present, execWord_legal hd, h]
  simp [hr]

theorem tell_nil (s : State) : tell s [] = s := rfl

theorem tell_cons (s : State) (i : Instr) (is : List Instr) : tell s (i :: is) = tell (ask s (encode i)).1 is := rfl

theorem tell_append (s : State) (a b : List Instr) : tell s (a ++ b) = tell (tell s a) b := by
  induction a generalizing s with
  | nil => rfl
  | cons i a ih => rw [List.cons_append, tell_cons, tell_cons, ih]

end Sys2Proof.Machine
end

