-- ==== Sys2Proof/Tests/Slice0.lean ====
section
/-! SUPPORT. The model's own tests. Every expected result is a value of spec/95_test_vectors.md, named in the docstring,
or a value worked out by hand from the rule named there; then a witness for each statement with hypotheses. -/

namespace Sys2Proof.Tests

-- One theorem at a time: elaborated side by side they take a thread each.
set_option Elab.async false

open Sys2Proof Sys2Proof.Machine

/-! The states the tests run on. -/

/-- Every field zero. -/
def blank : State where
  B := Vector.replicate 36 0
  T := Vector.replicate 48 0
  TLEN := 0
  FLAGS := 0
  CRC := 0
  STATUS := 0
  inputs := []
  responses := []
  resets := 0

/-- The 48 cells of a text. -/
def cells (t : String) : TextCells := Vector.ofFn fun j => charCode (t.toList.getD j.val ' ')

/-- A state that holds the text `x` with its length. -/
def withText (x : TextCells) : State := { blank with T := x, TLEN := 48 }

/-- A state that holds the frame `f`. -/
def withFrame (f : FrameBytes) : State := { blank with B := f }

/-- A state with every bit of FLAGS that can be set, the highest status and both kinds of response. -/
def busy : State := { blank with FLAGS := 3, STATUS := 4, responses := [0x0400, 0x00FF] }

/-- What the block answered last, if the command went on. -/
def answerOf (o : Host.Outcome State Fault Refusal) : Option ResponseWord := (nextOf o).bind fun t => t.responses.getLast?

/-- The state the command left; a value no test expects if it did not go on. -/
def leftBy (o : Host.Outcome State Fault Refusal) : State := (nextOf o).getD { blank with resets := 1000 }

/-! WellFormed (R76, R80 items c and d): the last good operand of each check, and the first bad one. -/

theorem test_wf_wrb : Instr.wf (.wrb 35 0) = true ∧ Instr.wf (.wrb 36 0) = false := by decide

theorem test_wf_rdb : Instr.wf (.rdb 35) = true ∧ Instr.wf (.rdb 36) = false := by decide

theorem test_wf_wrt : Instr.wf (.wrt 47 0) = true ∧ Instr.wf (.wrt 48 0) = false := by decide

theorem test_wf_rdt : Instr.wf (.rdt 47) = true ∧ Instr.wf (.rdt 48) = false := by decide

theorem test_wf_wrflags : Instr.wf (.wrflags 3) = true ∧ Instr.wf (.wrflags 4) = false := by decide

/-! Decoding: one word of each row, written out from R70, R71 and R76. -/

theorem test_decode_wrb : decodeWord 0x0101FF = .legal (.wrb 1 0xFF) := by decide

theorem test_decode_rdb : decodeWord 0x020100 = .legal (.rdb 1) := by decide

theorem test_decode_wrt : decodeWord 0x030045 = .legal (.wrt 0 0x45) := by decide

theorem test_decode_rdt : decodeWord 0x042F00 = .legal (.rdt 47) := by decide

theorem test_decode_wrlen : decodeWord 0x05002F = .legal (.wrlen 47) := by decide

theorem test_decode_rdlen : decodeWord 0x060000 = .legal (.rdlen) := by decide

theorem test_decode_wrflags : decodeWord 0x070001 = .legal (.wrflags 1) := by decide

theorem test_decode_rdflags : decodeWord 0x080000 = .legal (.rdflags) := by decide

theorem test_decode_rdstatus : decodeWord 0x090000 = .legal (.rdstatus) := by decide

theorem test_decode_rdcrch : decodeWord 0x0A0000 = .legal (.rdcrch) := by decide

theorem test_decode_rdcrcl : decodeWord 0x0B0000 = .legal (.rdcrcl) := by decide

theorem test_decode_rdtabh : decodeWord 0x0C1000 = .legal (.rdtabh 0x10) := by decide

theorem test_decode_rdtabl : decodeWord 0x0DFF00 = .legal (.rdtabl 255) := by decide

theorem test_decode_crcinit : decodeWord 0x100000 = .legal (.crcinit) := by decide

theorem test_decode_crcbyte : decodeWord 0x110031 = .legal (.crcbyte 0x31) := by decide

theorem test_decode_ckgen : decodeWord 0x120000 = .legal (.ckgen) := by decide

theorem test_decode_ckchk : decodeWord 0x130000 = .legal (.ckchk) := by decide

theorem test_decode_b64enc : decodeWord 0x200000 = .legal (.b64enc) := by decide

theorem test_decode_b64dec : decodeWord 0x210000 = .legal (.b64dec) := by decide

theorem test_decode_tagpack : decodeWord 0x300000 = .legal (.tagpack) := by decide

theorem test_decode_tagunpack : decodeWord 0x310000 = .legal (.tagunpack) := by decide

theorem test_decode_encode : decodeWord 0x400000 = .legal (.encode) := by decide

theorem test_decode_decode : decodeWord 0x410000 = .legal (.decode) := by decide

/-- V76: unassigned opcodes. -/
theorem test_decode_unassigned :
    [0x000000#24, 0xFFFFFF, 0x0E0000, 0x0F0000, 0x140000, 0x220000, 0x320000, 0x420000, 0x500000].map decodeWord = List.replicate 9 (.illegal .unassignedOpcode) := by decide +kernel

/-- V77: indices out of range. -/
theorem test_decode_index :
    [0x012400#24, 0x0124FF, 0x022400, 0x033041, 0x043000, 0x01FF00].map decodeWord = List.replicate 6 (.illegal .indexOutOfRange) := by decide +kernel

/-- V78: nonzero reserved fields. -/
theorem test_decode_reserved :
    [0x020001#24, 0x100001, 0x110100, 0x400100, 0x410001, 0x060100, 0x050130].map decodeWord = List.replicate 7 (.illegal .reservedFieldNonzero) := by decide +kernel

/-- V79: flags operands out of range. -/
theorem test_decode_flags :
    [0x070004#24, 0x0700FF].map decodeWord = List.replicate 2 (.illegal .flagsOperandOutOfRange) := by decide +kernel

/-- The numbering of the opcode table is the command word's own (R70); a longer word is no command (R78). -/
theorem test_table_word : decodeTableWord 24 0x0101FF = some (.wrb 1 0xFF) ∧ decodeTableWord 24 0x020001 = none ∧
    decodeTableWord 32 0x100000 = none := by decide

/-- The word placed with `withFetchWord` is the next one executed, also on the state after reset. -/
theorem test_fetch_word : answerOf (step (State.reset.withFetchWord 24 0x090000)) = some 0x0000 ∧
    answerOf (step (State.reset.withFetchWord 24 0x070004)) = some 0x0400 := by decide +kernel

/-! One command on one state, at most two per command. -/

/-- V55, V70. -/
theorem test_wrb : answerOf (exec (.wrb 1 0xFF) blank) = some 0x0000 ∧ (leftBy (exec (.wrb 1 0xFF) blank)).B[1] = 0xFF := by decide +kernel

/-- The last cell (R50). -/
theorem test_wrb_last : (leftBy (exec (.wrb 35 0xA5) blank)).B = blank.B.set 35 0xA5 := by decide +kernel

/-- V70; V20 for the cell. -/
theorem test_rdb : answerOf (exec (.rdb 1) (withFrame (exampleFrame.set 1 0xFF))) = some 0x00FF ∧
    answerOf (exec (.rdb 35) (withFrame exampleFrame)) = some 0x0048 := by decide +kernel

/-- V71. -/
theorem test_wrt : (leftBy (exec (.wrt 0 0x45) blank)).T[0] = 0x45 ∧ (leftBy (exec (.wrt 0 0x45) blank)).TLEN = 0 := by decide +kernel

/-- V71, P2. -/
theorem test_rdt : answerOf (exec (.rdt 0) (withText exampleText)) = some 0x0055 ∧
    answerOf (exec (.rdt 47) (withText exampleText)) = some 0x0049 := by decide +kernel

/-- V72. -/
theorem test_wrlen : (leftBy (exec (.wrlen 47) blank)).TLEN = 47 ∧ (leftBy (exec (.wrlen 255) blank)).TLEN = 255 := by decide +kernel

/-- V72. -/
theorem test_rdlen : answerOf (exec .rdlen { blank with TLEN := 0x2F }) = some 0x002F := by decide +kernel

/-- V73. -/
theorem test_wrflags : (leftBy (exec (.wrflags 3) blank)).FLAGS = 3 := by decide +kernel

/-- V73; the hardwired bits read as 0 (R24). -/
theorem test_rdflags : answerOf (exec .rdflags { blank with FLAGS := 3 }) = some 0x0003 ∧
    answerOf (exec .rdflags { blank with FLAGS := 0xFE }) = some 0x0002 := by decide +kernel

/-- V79: it does not clear what it reads (R109). -/
theorem test_rdstatus : answerOf (exec .rdstatus { blank with STATUS := 4 }) = some 0x0004 ∧
    (leftBy (exec .rdstatus { blank with STATUS := 4 })).STATUS = 4 := by decide +kernel

/-- P1. -/
theorem test_rdcrch : answerOf (exec .rdcrch { blank with CRC := 0x31C3 }) = some 0x0031 := by decide +kernel

/-- P1. -/
theorem test_rdcrcl : answerOf (exec .rdcrcl { blank with CRC := 0x31C3 }) = some 0x00C3 := by decide +kernel

/-- V74, V19. -/
theorem test_rdtabh : answerOf (exec (.rdtabh 0x10) blank) = some 0x0012 ∧ answerOf (exec (.rdtabh 255) blank) = some 0x001E := by decide +kernel

/-- V74, V19. -/
theorem test_rdtabl : answerOf (exec (.rdtabl 0x10) blank) = some 0x0031 ∧ answerOf (exec (.rdtabl 255) blank) = some 0x00F0 := by decide +kernel

/-- V10, P7. -/
theorem test_crcinit : (leftBy (exec .crcinit { blank with CRC := 0x1234, STATUS := 4 })).CRC = 0 ∧
    (leftBy (exec .crcinit { blank with CRC := 0x1234, STATUS := 4 })).STATUS = 0 := by decide +kernel

/-- V16. -/
theorem test_crcbyte : (leftBy (exec (.crcbyte 0x56) { blank with CRC := 0x1234 })).CRC = 0x3C40 ∧
    (leftBy (exec (.crcbyte 0xFF) { blank with CRC := 0x00FF })).CRC = 0xE1F0 := by decide +kernel

/-- V20: the payload of the frame, its checksum not yet there. -/
theorem test_ckgen : (leftBy (exec .ckgen (withFrame ((exampleFrame.set 34 0).set 35 0)))).B = exampleFrame ∧
    (leftBy (exec .ckgen (withFrame exampleFrame))).CRC = 0x4048 := by decide +kernel

/-- V20: a right checksum reaches CRC. -/
theorem test_ckchk : answerOf (exec .ckchk (withFrame exampleFrame)) = some 0x0000 ∧
    (leftBy (exec .ckchk (withFrame exampleFrame))).CRC = 0x4048 := by decide +kernel

/-- V60, V61; CRC keeps its value (90_conflicts.md C7). -/
theorem test_ckchk_wrong : answerOf (exec .ckchk (withFrame (exampleFrame.set 17 0x5E))) = some 0x0200 ∧
    (leftBy (exec .ckchk (withFrame (exampleFrame.set 35 0x49)))).CRC = 0 := by decide +kernel

/-- V31, V30. -/
theorem test_b64enc : (leftBy (exec .b64enc (withFrame (Vector.ofFn fun i => BitVec.ofNat 8 i.val)))).T =
      cells "AAECAwQFBgcICQoLDA0ODxAREhMUFRYXGBkaGxwdHh8gISIj" ∧
    (leftBy (exec .b64enc (withFrame (Vector.replicate 36 0xFF)))).T = Vector.replicate 48 0x5F := by decide +kernel

/-- V20, V30. -/
theorem test_b64enc_v20 : (leftBy (exec .b64enc (withFrame exampleFrame))).T = exampleText ∧
    (leftBy (exec .b64enc (withFrame exampleFrame))).TLEN = 48 := by decide +kernel

/-- V39. -/
theorem test_b64dec : (leftBy (exec .b64dec (withText exampleText))).B = exampleFrame ∧ answerOf (exec .b64dec (withText exampleText)) = some 0 := by decide +kernel

/-- V33, V34, V35. -/
theorem test_b64dec_format : answerOf (exec .b64dec { withText exampleText with TLEN := 47 }) = some 0x0100 ∧
    ∀ c ∈ [0x3D#8, 0x2B, 0x2F, 0x20, 0x2E, 0x00, 0xFF, 0x40, 0x5B, 0x60, 0x7B],
      answerOf (exec .b64dec (withText (exampleText.set 47 c))) = some 0x0100 := by decide +kernel

/-- V40 to V43. -/
theorem test_tagpack : (leftBy (exec .tagpack { blank with FLAGS := 1 })).B[0] = 0x11 ∧ (leftBy (exec .tagpack blank)).B[0] = 0x51 ∧
    (leftBy (exec .tagpack { blank with FLAGS := 3 })).B[0] = 0x91 ∧
    (leftBy (exec .tagpack { blank with FLAGS := 2 })).B[0] = 0xD1 := by decide +kernel

/-- V40 to V43. -/
theorem test_tagunpack : (leftBy (exec .tagunpack (withFrame (exampleFrame.set 0 0x11)))).FLAGS = 1 ∧
    (leftBy (exec .tagunpack { withFrame exampleFrame with FLAGS := 3 })).FLAGS = 0 ∧
    (leftBy (exec .tagunpack (withFrame (exampleFrame.set 0 0x91)))).FLAGS = 3 ∧
    (leftBy (exec .tagunpack (withFrame (exampleFrame.set 0 0xD1)))).FLAGS = 2 := by decide +kernel

/-- V45. -/
theorem test_tagunpack_unknown : ∀ c ∈ [0x00#8, 0xFF, 0x10, 0x01, 0x31, 0x13, 0x15, 0x19, 0x50, 0x90, 0xD0, 0x71, 0xB1, 0xF1, 0x55],
    answerOf (exec .tagunpack (withFrame (exampleFrame.set 0 c))) = some 0x0300 := by decide +kernel

/-- V20: nothing of the old tag and checksum is read. -/
theorem test_encode : (leftBy (exec .encode (withFrame (((exampleFrame.set 0 0xEE).set 34 0xEE).set 35 0xEE)))).T = exampleText ∧
    (leftBy (exec .encode (withFrame exampleFrame))).B = exampleFrame ∧
    (leftBy (exec .encode (withFrame exampleFrame))).CRC = 0x4048 := by decide +kernel

/-- V24: workchain -1, bounceable, hash zero. -/
theorem test_encode_v24 : (leftBy (exec .encode { blank with B := blank.B.set 1 0xFF, FLAGS := 1 })).T =
    cells "Ef8AAAAAAAAAAAAAAAAAAAAAAAAAAAAAAAAAAAAAAAAAADAU" := by decide +kernel

/-- V20 read backwards; the three results are committed together. -/
theorem test_decode : (leftBy (exec .decode { withText exampleText with FLAGS := 3 })).B = exampleFrame ∧
    (leftBy (exec .decode { withText exampleText with FLAGS := 3 })).FLAGS = 0 ∧
    (leftBy (exec .decode { withText exampleText with FLAGS := 3 })).CRC = 0x4048 := by decide +kernel

/-- V29, V33, V46, V47, V64, V65: which error, in which order (R186). -/
theorem test_decode_errors : answerOf (exec .decode (withText (Vector.replicate 48 0x41))) = some 0x0300 ∧
    answerOf (exec .decode { withText exampleText with TLEN := 47 }) = some 0x0100 ∧
    answerOf (exec .decode (withText (cells "MQCD39VS5jcptHL8vMjEXrzGaRcCVYto7HUn4bpAOg8xqLt_"))) = some 0x0300 ∧
    answerOf (exec .decode (withText (cells "AACD39VS5jcptHL8vMjEXrzGaRcCVYto7HUn4bpAOg8xqEBI"))) = some 0x0200 ∧
    answerOf (exec .decode (withText (exampleText.set 0 0x54))) = some 0x0200 ∧
    answerOf (exec .decode (withText (exampleText.set 0 0xD5))) = some 0x0100 := by decide +kernel

/-- V76 to V79: an illegal word changes STATUS only. -/
theorem test_illegal_word : [0x000000#24, 0x0124FF, 0x100001, 0x0700FF].map (fun w => leftBy (execWord w (withText exampleText))) =
    List.replicate 4 { withText exampleText with STATUS := 4, responses := [0x0400] } := by decide +kernel

/-! The pure functions. -/

/-- V20: the text of the example, character by character. -/
theorem test_example_text : exampleText = cells "UQCD39VS5jcptHL8vMjEXrzGaRcCVYto7HUn4bpAOg8xqEBI" := by decide +kernel

/-- V11, V12, V15. -/
theorem test_crc16 : crc16 [0x31, 0x32, 0x33, 0x34, 0x35, 0x36, 0x37, 0x38, 0x39] = 0x31C3 ∧ crc16 [0xFF] = 0x1EF0 ∧
    crc16 (List.replicate 34 0xFF) = 0x2D0C := by decide +kernel

/-- V17: the register after each of the eight bits of 0x31. -/
theorem test_crc_bits : List.scanl crcBit 0x0000 [false, false, true, true, false, false, false, true] =
    [0x0000, 0x0000, 0x0000, 0x1021, 0x3063, 0x60C6, 0xC18C, 0x9339, 0x2672] := by decide +kernel

/-- V36. -/
theorem test_b64_val : [0x41#8, 0x5A, 0x61, 0x7A, 0x30, 0x39, 0x2D, 0x5F].map b64Val =
    [some 0, some 25, some 26, some 51, some 52, some 61, some 62, some 63] := by decide +kernel

/-- V37. -/
theorem test_pack_group : packGroup 0x51 0x00 0x83 = #v[20, 16, 2, 3] := by decide +kernel

/-- V50, V51. -/
theorem test_workchain : [0, 1, 127, -1, -128].map wcToByte = [0x00, 0x01, 0x7F, 0xFF, 0x80] ∧
    [0x00#8, 0x7F, 0x80, 0xFF, 0xFE].map byteToWc = [0, 127, -128, -1, -2] := by decide +kernel

/-! Host procedures and notation. -/

/-- V53, V54. -/
theorem test_parse_workchain : ["-128", "127", "-1", "0", "007", "-0"].map (fun t => parseWorkchain t.toList) =
      [some (-128), some 127, some (-1), some 0, some 7, some 0] ∧
    ∀ t ∈ ["128", "-129", "1000", "+1", " 1", "1 ", "0x10", "1e1", "-", ""], parseWorkchain t.toList = none := by decide +kernel

/-- V80, V81. -/
theorem test_to_raw_errors : ∀ t ∈ ["abc", "", ":", "0:", "0:0x00000000000000000000000000000000000000000000000000000000000000"],
    toRaw t.toList = .error .formatError := by decide +kernel

/-- V82, V83: the raw text of the scenario, both cases of the digits on input, lower case on output. -/
theorem test_to_raw : toRaw "0:83DFD552E63729B472FCBCC8C45EBCC6691702558B68EC7527E1BA403A0F31A8".toList =
      .ok ⟨0, Vector.ofFn fun k => exampleFrame[k.val + 2]⟩ ∧
    rawText ⟨0, Vector.ofFn fun k => exampleFrame[k.val + 2]⟩ =
      "0:83dfd552e63729b472fcbcc8c45ebcc6691702558b68ec7527e1ba403a0f31a8".toList := by decide +kernel

/-- R196: a character without a code, the saturating length. -/
theorem test_load_text : charCode 'é' = 0xFF ∧ (loadText (List.replicate 300 'A')).length = 49 ∧
    (loadText (List.replicate 300 'A')).getLast? = some (.wrlen 255) := by decide +kernel

/-- V86 through normalize (R198): the errors of decode are passed on. -/
theorem test_normalize_errors : (Machine.normalize "0QCD39VS5jcptHL8vMjEXrzGaRcCVYto7HUn4bpAOg8xqEBI".toList true blank).2 = .error .checksumMismatch ∧
    (Machine.normalize "AACD39VS5jcptHL8vMjEXrzGaRcCVYto7HUn4bpAOg8xqNLR".toList true blank).2 = .error .formatError := by decide +kernel

/-- R82: the notation's own examples of a line. -/
theorem test_assemble : assembleLine "WRB 1, 0xFF ; comment".toList = .command (.wrb 1 0xFF) ∧
    assembleLine "WRT 10, 'k'".toList = .command (.wrt 10 0x6B) ∧ assembleLine "; nothing".toList = .blank ∧
    render (.wrb 1 0xFF) = "WRB 0x01, 0xFF".toList := by decide +kernel

/-! Witnesses: for each statement with hypotheses, a state and operands that meet them, for each clause at the edge of
its range. (For clauses whose only hypothesis is on the operand, the decode tests above are the witnesses as well.) -/

/-- Well-formed commands at the edge of each range. -/
theorem test_witness_decode_of_encode :
    ∀ i ∈ [Instr.wrb 35 255, .rdb 35, .wrt 47 0, .rdt 47, .wrflags 3, .wrlen 255, .decode], i.wf = true := by decide +kernel

/-- Words that decode to a command. -/
theorem test_witness_legal_words :
    decodeWord 0x0123FF = .legal (.wrb 35 0xFF) ∧ decodeWord 0x042F00 = .legal (.rdt 47) := by decide +kernel

/-- An illegal word of each kind at the port, the index and the flags operand at the first bad value. -/
theorem test_witness_illegal_exactly :
    ([0x0E0000#24, 0x060001, 0x060100, 0x0C0001, 0x050100, 0x012400, 0x022400, 0x033000, 0x043000, 0x070004].all
      fun w => isIllegal w) = true ∧ ∀ w, (blank.present w).inputs = .command w :: [] := by 
  exact ⟨by decide +kernel, fun _ => rfl⟩

/-- Commands of different mnemonics (of one format, and of two); the last word a row with a constraint selects and the first
it matches but does not select; the same for the two other constraints; a word of another row. -/
theorem test_witness_rows :
    mnemonicOf (.wrb 0 0) ≠ mnemonicOf (.wrt 0 0) ∧ mnemonicOf .encode ≠ mnemonicOf .decode ∧
      mnemonicOf (.wrb 0 0) ≠ mnemonicOf (.rdb 0) ∧
      selectsRow 0x0123FF (.wrb 0 0) ∧ matchesRow 0x0124FF (.wrb 0 0) ∧ ¬ selectsRow 0x0124FF (.wrb 0 0) ∧
      selectsRow 0x042F00 (.rdt 0) ∧ ¬ selectsRow 0x043000 (.rdt 0) ∧
      selectsRow 0x070003 (.wrflags 0) ∧ ¬ selectsRow 0x070004 (.wrflags 0) ∧ ¬ matchesRow 0x410000 .encode := by decide +kernel

/-- A legal command at the port. -/
theorem test_witness_step_runs :
    (blank.present 0x0101FF).inputs = .command 0x0101FF :: [] ∧ decodeWord 0x0101FF = .legal (.wrb 1 0xFF) ∧
      Instr.wf (.wrb 1 0xFF) = true := by decide +kernel

/-- Nothing presented. -/
theorem test_witness_idle :
    blank.inputs = [] ∧ State.reset.inputs = [] := by exact ⟨rfl, rfl⟩

/-- A reset event at the port. -/
theorem test_witness_reset_event :
    ({ blank with inputs := [.reset, .command 0x090000] } : State).inputs = .reset :: [.command 0x090000] := by decide +kernel

/-- A state with the invariant and a step from it. -/
theorem test_witness_invariant :
    busy.Inv ∧ ∃ t, step (busy.present 0x0700FF) = .next t := by 
  refine ⟨⟨by decide, by decide, fun p hp => ?_⟩, execWord_next 0x0700FF busy⟩
  have hp : p = 0x0400 ∨ p = 0x00FF := by simpa [busy] using hp
  rcases hp with rfl | rfl <;> decide

/-- An illegal word, a legal RD* and a legal other command. -/
theorem test_witness_answered :
    isIllegal 0x070004 = true ∧ (decodeWord 0x022300 = .legal (.rdb 35) ∧ isRead (.rdb 35) = true) ∧
      decodeWord 0x210000 = .legal .b64dec ∧ isRead .b64dec = false := by decide +kernel

/-- Two states that hold the same block and differ at the port. -/
theorem test_witness_same_block :
    SameBlock blank { blank with inputs := [.reset], responses := [0x0400], resets := 7 } ∧
      blank ≠ { blank with inputs := [.reset], responses := [0x0400], resets := 7 } := by decide +kernel

/-- A response of each error status. -/
theorem test_witness_errors :
    (answerOf (execWord 0x410000 blank)).map responseStatus = some 0x01 ∧
      (answerOf (execWord 0x130000 (withFrame (blank.B.set 35 1)))).map responseStatus = some 0x02 ∧
      (answerOf (execWord 0x310000 blank)).map responseStatus = some 0x03 ∧
      (answerOf (execWord 0x070004 blank)).map responseStatus = some 0x04 := by decide +kernel

/-- A state and a well-formed command that changes each field. -/
theorem test_witness_writers :
    (leftBy (exec (.wrb 35 1) blank)).B ≠ blank.B ∧ (leftBy (exec (.wrt 47 1) blank)).T ≠ blank.T ∧
      (leftBy (exec (.wrlen 1) blank)).TLEN ≠ blank.TLEN ∧ (leftBy (exec (.wrflags 3) blank)).FLAGS ≠ blank.FLAGS ∧
      (leftBy (exec (.crcbyte 1) blank)).CRC ≠ blank.CRC ∧ (leftBy (exec .decode blank)).STATUS ≠ blank.STATUS ∧
      Instr.wf (.wrb 35 1) = true ∧ Instr.wf (.wrt 47 1) = true ∧ Instr.wf (.wrflags 3) = true := by decide +kernel

/-- The last index of each buffer and the first one past it. -/
theorem test_witness_index :
    (35#8).toNat < 36 ∧ 36 ≤ (36#8).toNat ∧ (47#8).toNat < 48 ∧ 48 ≤ (48#8).toNat ∧ (1#8 : Byte) ≠ 0 := by decide +kernel

/-- Lengths next to 48, and a reserved field that is not zero. -/
theorem test_witness_lengths :
    (47#8 : Byte) ≠ 48 ∧ (49#8 : Byte) ≠ 48 ∧ (255#8 : Byte) ≠ 48 ∧ (1#8 : Byte) ≠ 0 := by decide +kernel

/-- The last flags operand and the first bad one. -/
theorem test_witness_flags_operand :
    (3#8).extractLsb' 2 6 = 0#6 ∧ (4#8).extractLsb' 2 6 ≠ 0#6 := by decide +kernel

/-- For each command of format N, words of its opcode that are not its word. -/
theorem test_witness_format_n :
    ∀ op ∈ [0x06#8, 0x08, 0x09, 0x0A, 0x0B, 0x10, 0x12, 0x13, 0x20, 0x21, 0x30, 0x31, 0x40, 0x41],
      opField (mkWord op 1 0) = op ∧ mkWord op 1 0 ≠ mkWord op 0 0 ∧ opField (mkWord op 0 0xFF) = op ∧
      mkWord op 0 0xFF ≠ mkWord op 0 0 := by decide +kernel

/-- A DECODE that leaves the tag 0x91 (V23), from a state with the invariant. -/
theorem test_witness_flags_after_decode :
    (withText (cells "kQCD39VS5jcptHL8vMjEXrzGaRcCVYto7HUn4bpAOg8xqKYH")).Inv ∧
      (fun t : State => (t.STATUS, t.B[0]))
        (leftBy (exec .decode (withText (cells "kQCD39VS5jcptHL8vMjEXrzGaRcCVYto7HUn4bpAOg8xqKYH")))) = (0x00, 0x91) := by 
  exact ⟨⟨by decide, by decide, fun p hp => nomatch hp⟩, by decide +kernel⟩

/-- The register after P1. -/
theorem test_witness_crc_value :
    ({ blank with CRC := 0x31C3 } : State).CRC = 0x31C3 := by decide +kernel

/-- A payload of zeros under a checksum that is not. -/
theorem test_witness_zero_payload :
    (∀ k : Fin 36, k.val < 34 → (withFrame (blank.B.set 35 9)).B[k] = 0) ∧ (withFrame (blank.B.set 35 9)).B ≠ blank.B := by decide +kernel

/-- A right checksum, a wrong one, and the frame of zeros. -/
theorem test_witness_checksum :
    ChecksumOk (withFrame exampleFrame).B ∧ ¬ ChecksumOk (withFrame (exampleFrame.set 35 0x49)).B ∧
      ∀ k : Fin 36, blank.B[k] = 0 := by decide +kernel

/-- The frames of V30. -/
theorem test_witness_b64enc :
    (∀ k : Fin 36, (withFrame (Vector.replicate 36 0x00)).B[k] = 0x00) ∧
      ∀ k : Fin 36, (withFrame (Vector.replicate 36 0xFF)).B[k] = 0xFF := by decide +kernel

/-- The cases of B64DEC: the length next to 48, a bad last cell, a good text. -/
theorem test_witness_b64dec :
    ({ withText exampleText with TLEN := 47 } : State).TLEN ≠ 48 ∧ (withText exampleText).TLEN = 48 ∧
      (∃ j : Fin 48, b64Val (withText (exampleText.set 47 0x3D)).T[j] = none) ∧ b64Dec (withText exampleText).T = some exampleFrame := by decide +kernel

/-- States with the data of the spec's examples: R130, R131 and R148, R150 and R183, R181. -/
theorem test_witness_examples :
    (∀ k : Fin 36, k.val < 34 → (withFrame exampleFrame).B[k] = exampleFrame[k]) ∧
      (withFrame exampleFrame).B = exampleFrame ∧
      (withFrame (exampleFrame.set 35 0x49)).B = exampleFrame.set 35 0x49 ∧
      ((withText exampleText).TLEN = 48 ∧ (withText exampleText).T = exampleText) ∧
      ((withText (exampleText.set 5 0x3D)).TLEN = 48 ∧ (withText (exampleText.set 5 0x3D)).T = exampleText.set 5 0x3D) ∧
      (withFrame exampleFrame).FLAGS = 0x00 ∧ (withFrame exampleFrame).FLAGS &&& 0xFC = 0 := by 
  exact ⟨fun _ _ => rfl, rfl, rfl, ⟨rfl, rfl⟩, ⟨rfl, rfl⟩, rfl, by decide⟩

/-- A known tag and an unknown one. -/
theorem test_witness_tagunpack :
    ((withFrame (exampleFrame.set 0 0xD1)).B[0], 0x02#8) ∈ [(0x11#8, 0x01#8), (0x51, 0x00), (0x91, 0x03), (0xD1, 0x02)] ∧
      (withFrame (exampleFrame.set 0 0xD0)).B[0] ∉ [0x11#8, 0x51, 0x91, 0xD1] := by decide +kernel

/-- The payload and the frame that ENCODE builds, for V20. -/
theorem test_witness_encode_parts :
    (exampleFrame.toList.take 34 = tagOf ((withFrame exampleFrame).FLAGS.getLsbD 0) ((withFrame exampleFrame).FLAGS.getLsbD 1) ::
        ((withFrame exampleFrame).B.toList.drop 1).take 33) ∧
      exampleFrame.toList = exampleFrame.toList.take 34 ++ [(crc16 (exampleFrame.toList.take 34)).extractLsb' 8 8,
        (crc16 (exampleFrame.toList.take 34)).extractLsb' 0 8] := by decide +kernel

/-- The cases of DECODE: format, checksum, tag, success (V65, V64, V29, V20). -/
theorem test_witness_decode :
    b64Dec (withText (exampleText.set 0 0xD5)).T = none ∧
      (∃ f, b64Dec (withText (exampleText.set 0 0x54)).T = some f ∧ ¬ ChecksumOk f) ∧
      (∃ f, b64Dec (withText (Vector.replicate 48 0x41)).T = some f ∧ ChecksumOk f ∧ flagsOf f[0] = none) ∧
      (b64Dec (withText exampleText).T = some exampleFrame ∧ ChecksumOk exampleFrame ∧ flagsOf exampleFrame[0] = some (false, false)) ∧
      ∀ j : Fin 48, (withText (Vector.replicate 48 0x41)).T[j] = 0x41 := by 
  exact ⟨by decide +kernel, ⟨exampleFrame.set 0 0x4D, by decide +kernel⟩, ⟨Vector.replicate 36 0, by decide +kernel⟩,
    by decide +kernel, by decide +kernel⟩

/-- A DECODE for each of the four statuses. -/
theorem test_witness_decode_statuses :
    (leftBy (exec .decode (withText exampleText))).STATUS = 0x00 ∧ (leftBy (exec .decode blank)).STATUS = 0x01 ∧
      (leftBy (exec .decode (withText (exampleText.set 0 0x54)))).STATUS = 0x02 ∧
      (leftBy (exec .decode (withText (Vector.replicate 48 0x41)))).STATUS = 0x03 := by decide +kernel

/-- A state with the invariant and every flag, and a successful DECODE. -/
theorem test_witness_round_trip :
    busy.Inv ∧ (leftBy (exec .decode (withText exampleText))).STATUS = 0x00 := by 
  exact ⟨test_witness_invariant.1, by decide +kernel⟩

/-- A successful DECODE and a changed last cell, outside the alphabet and inside it. -/
theorem test_witness_one_character :
    (leftBy (exec .decode (withText exampleText))).STATUS = 0x00 ∧ (0x3D#8 : Byte) ≠ (withText exampleText).T[(47 : Fin 48)] ∧
      b64Val 0x3D = none ∧ (0x48#8 : Byte) ≠ (withText exampleText).T[(47 : Fin 48)] ∧ b64Val 0x48 ≠ none := by decide +kernel

/-- A frame with a right checksum and two bits of it, the outermost ones. -/
theorem test_witness_bit_errors :
    ChecksumOk (withFrame exampleFrame).B ∧ (0 : Fin 288) ≠ 287 := by decide +kernel

/-- The same, with the outermost places of a burst. -/
theorem test_witness_bursts :
    ChecksumOk (withFrame exampleFrame).B ∧ (0x8001#16 : BitVec 16) ≠ 0 ∧ 272 ≤ 272 ∧ 0 ≤ 272 := by decide +kernel

/-- Sequences of one length. -/
theorem test_witness_laws :
    [0x00#8, 0xFF].length = [0xA5#8, 0x01].length := by decide +kernel

/-- Characters of the alphabet and codes past 0x7F. -/
theorem test_witness_alphabet :
    b64Val 0x5F = some 63 ∧ b64Val 0x41 = some 0 ∧ 0x80 ≤ (0x80#8).toNat ∧ 0x80 ≤ (0xFF#8).toNat := by decide +kernel

/-- A text that decodes. -/
theorem test_witness_text_layer :
    b64Dec exampleText = some exampleFrame := by decide +kernel

/-- A tag with its flags. -/
theorem test_witness_tags :
    flagsOf 0x91 = some (true, true) ∧ flagsOf 0x51 = some (false, false) := by decide +kernel

/-- Workchains at both ends of the range. -/
theorem test_witness_workchain :
    (-128 : Int) ≤ -128 ∧ (-128 : Int) ≤ 127 ∧ (-128 : Int) ≤ 127 ∧ (127 : Int) ≤ 127 ∧ (0x7F#8).toNat ≤ 127 ∧
      ¬ (0x80#8).toNat ≤ 127 := by decide +kernel

/-- A well-formed RD* and a command that is not CRCBYTE. -/
theorem test_witness_idempotent :
    Instr.wf (.rdt 47) = true ∧ isRead (.rdt 47) = true ∧ ∀ dat, Instr.ckgen ≠ .crcbyte dat := by 
  exact ⟨by decide, by decide, fun _ h => nomatch h⟩

/-- Workchains in range, at both ends, and the first one out of it. -/
theorem test_witness_raw_addresses :
    workchainInRange (-128) = true ∧ workchainInRange 127 = true ∧ workchainInRange 128 = false := by decide +kernel

/-- Texts of 48 characters without a colon whose cells fail DECODE: a last character outside the alphabet, V63 (the
checksum), V29 (the tag). -/
theorem test_witness_normalize_errors :
    (cells "UQCD39VS5jcptHL8vMjEXrzGaRcCVYto7HUn4bpAOg8xqEB=").toList =
        "UQCD39VS5jcptHL8vMjEXrzGaRcCVYto7HUn4bpAOg8xqEB=".toList.map charCode ∧
      ("UQCD39VS5jcptHL8vMjEXrzGaRcCVYto7HUn4bpAOg8xqEB=".toList.length = 48 ∧
        ':' ∉ "UQCD39VS5jcptHL8vMjEXrzGaRcCVYto7HUn4bpAOg8xqEB=".toList) ∧
      b64Dec (cells "UQCD39VS5jcptHL8vMjEXrzGaRcCVYto7HUn4bpAOg8xqEB=") = none ∧
      ((cells "0QCD39VS5jcptHL8vMjEXrzGaRcCVYto7HUn4bpAOg8xqEBI").toList =
        "0QCD39VS5jcptHL8vMjEXrzGaRcCVYto7HUn4bpAOg8xqEBI".toList.map charCode ∧
        b64Dec (cells "0QCD39VS5jcptHL8vMjEXrzGaRcCVYto7HUn4bpAOg8xqEBI") = some (exampleFrame.set 0 0xD1) ∧
        ¬ ChecksumOk (exampleFrame.set 0 0xD1)) ∧
      (Vector.replicate 48 0x41#8).toList = (List.replicate 48 'A').map charCode ∧
      b64Dec (Vector.replicate 48 0x41) = some (Vector.replicate 36 0) ∧
      ChecksumOk (Vector.replicate 36 0) ∧ flagsOf (Vector.replicate 36 0#8)[0] = none := by decide +kernel

/-- A text that is not of the user-friendly form: 47 characters, or 48 with a colon. -/
theorem test_witness_not_user_friendly :
    ¬ ((List.replicate 47 'A').length = 48 ∧ ':' ∉ List.replicate 47 'A') ∧
      ¬ ((':' :: List.replicate 47 'A').length = 48 ∧ ':' ∉ ':' :: List.replicate 47 'A') := by decide +kernel

end Sys2Proof.Tests
end

namespace Sys2Proof.Machine

/-! ## The decoder: the commands a word of each format can decode to (R71, R72) -/

/-- A legal word of format N has both operand fields zero. -/
theorem decodeN_legal {w : CommandWord} {i j : Instr} (h : decodeN w i = .legal j) :
    idxField w = 0 ∧ datField w = 0 ∧ j = i := by
  obtain ⟨hres, -, hj⟩ := decodeRow_legal h
  simp only [Bool.or_eq_false_iff, bne_eq_false_iff_eq] at hres
  exact ⟨hres.1, hres.2, hj⟩

/-- A legal word of format I has `dat` zero and its index inside the index space. -/
theorem decodeI_legal {w : CommandWord} {limit : Nat} {i : Byte → Instr} {j : Instr}
    (h : decodeI w limit i = .legal j) :
    datField w = 0 ∧ (idxField w).toNat < limit ∧ j = i (idxField w) := by
  obtain ⟨hres, hlt, hj⟩ := decodeRow_legal h
  exact ⟨bne_eq_false_iff_eq.mp hres, of_decide_eq_true hlt, hj⟩

/-- A legal word of format D has `idx` zero and its operand below the row's limit. -/
theorem decodeD_legal {w : CommandWord} {limit : Nat} {i : Byte → Instr} {j : Instr}
    (h : decodeD w limit i = .legal j) :
    idxField w = 0 ∧ (datField w).toNat < limit ∧ j = i (datField w) := by
  obtain ⟨hres, hlt, hj⟩ := decodeRow_legal h
  exact ⟨bne_eq_false_iff_eq.mp hres, of_decide_eq_true hlt, hj⟩

/-- A legal word of format X has its index inside the index space. -/
theorem decodeX_legal {w : CommandWord} {limit : Nat} {i : Byte → Byte → Instr} {j : Instr}
    (h : decodeX w limit i = .legal j) :
    (idxField w).toNat < limit ∧ j = i (idxField w) (datField w) := by
  obtain ⟨-, hlt, hj⟩ := decodeRow_legal h
  exact ⟨of_decide_eq_true hlt, hj⟩

/-- Only well-formed commands come out of the decoder: the limit each row of the opcode map checks is the operand
constraint of its command (R76). -/
theorem decodeWord_legal_wf {w : CommandWord} {i : Instr} (h : decodeWord w = .legal i) : i.wf = true := by
  unfold decodeWord at h
  split at h
  case h_1 | h_3 =>
    obtain ⟨hlt, rfl⟩ := decodeX_legal h
    exact decide_eq_true (Nat.le_of_lt_succ hlt)
  case h_2 | h_4 =>
    obtain ⟨-, hlt, rfl⟩ := decodeI_legal h
    exact decide_eq_true (Nat.le_of_lt_succ hlt)
  case h_7 =>
    obtain ⟨-, hlt, rfl⟩ := decodeD_legal h
    exact decide_eq_true (Nat.le_of_lt_succ hlt)
  case h_5 | h_15 =>
    obtain ⟨-, -, rfl⟩ := decodeD_legal h
    rfl
  case h_12 | h_13 =>
    obtain ⟨-, -, rfl⟩ := decodeI_legal h
    rfl
  case h_24 => cases h
  all_goals
    obtain ⟨-, -, rfl⟩ := decodeN_legal h
    rfl

/-! ## What a command does to `STATUS` (R29) -/

/-- A well-formed `RD*` answers the value it reads, and that is all it does. -/
theorem exec_read {i : Instr} (hr : isRead i = true) (hw : i.wf = true) (s : State) :
    exec i s = .next (s.answer (readValue s i)) := by
  rcases exec_cases i s with ⟨d, -, h, hd⟩ | ⟨hn, -⟩ | ⟨e, -, he⟩
  · rw [h, hd hw]
  · rw [hn] at hr; cases hr
  · rw [(he hw).1] at hr; cases hr

/-- Every command that is no `RD*` ends by completing with one status, from a state in which nothing has happened at
the port. -/
theorem exec_completes_of_not_read {i : Instr} (hr : isRead i = false) (s : State) :
    ∃ (u : State) (e : Status), exec i s = .next (u.complete e) ∧
      u.responses = s.responses ∧ u.inputs = s.inputs ∧ u.resets = s.resets := by
  rcases exec_cases i s with ⟨d, hy, -⟩ | ⟨-, u, h, hres, hin, hcnt, -⟩ | ⟨e, h, -⟩
  · rw [hr] at hy; cases hy
  · exact ⟨u, .ok, h, hres, hin, hcnt⟩
  · exact ⟨s, e, h, rfl, rfl, rfl⟩

/-- An illegal word overwrites `STATUS` and looks at nothing. -/
theorem illegal_with_STATUS (s : State) (v : Byte) : State.illegal { s with STATUS := v } = s.illegal := rfl

/-- A command that is no `RD*` neither reads `STATUS` nor keeps it: the whole next state, response included, is the
same from any recorded status. -/
theorem exec_with_STATUS_of_not_read {i : Instr} (hr : isRead i = false) (s : State) (v : Byte) :
    exec i { s with STATUS := v } = exec i s := by
  cases i
  case rdb | rdt | rdlen | rdflags | rdstatus | rdcrch | rdcrcl | rdtabh | rdtabl => cases hr
  all_goals rfl

/-! ## The reset event (R36, R230) -/

/-- A reset event at the head of the stream is taken and resets the block. -/
theorem step_reset {s : State} {rest : List PortEvent} (h : s.inputs = .reset :: rest) :
    step s = .next (State.afterReset { s with inputs := rest }) := by
  simp [step, takeInput_cons h, execEvent]

/-- The 256 printed entries of the table are the values the generator gives (R124). -/
theorem crctab_eq_tab : ∀ i : Byte, crctab i = tab i := by decide +kernel

/-! ## The obligations -/

/-- Settles O15: an illegal word and a command that is no `RD*` do the same from any recorded status, and an `RD*`
only answers. -/
theorem statusUpdatePolicy : Obligations.StatusUpdatePolicy := by
  unfold Obligations.StatusUpdatePolicy
  intro w s
  cases hd : decodeWord w with
  | illegal r =>
    have hill : isIllegal w = true := (isIllegal_iff w).mpr ⟨r, hd⟩
    have hport : Responds s s.illegal (responseWord .errIllegal 0x00) := ⟨rfl, rfl, rfl⟩
    refine ⟨s.illegal, _, execWord_illegal hill s, hport, fun _ => rfl, by simp, by simp, fun v => ?_⟩
    rw [execWord_illegal hill, illegal_with_STATUS]
    exact ⟨s.illegal, _, rfl, hport, ⟨rfl, rfl, rfl, rfl, rfl⟩, fun _ => ⟨rfl, rfl⟩⟩
  | legal i =>
    have hlegal : isIllegal w = false := by simp [isIllegal, hd]
    simp only [execWord_legal hd, hlegal, Decoded.legal.injEq, forall_eq']
    cases hr : isRead i with
    | true =>
      have hread := exec_read hr (decodeWord_legal_wf hd)
      refine ⟨_, _, hread s, ⟨rfl, rfl, rfl⟩, by simp, by simp, fun _ => ⟨rfl, rfl, rfl, rfl, rfl, rfl⟩, fun v => ?_⟩
      exact ⟨_, _, hread _, ⟨rfl, rfl, rfl⟩, ⟨rfl, rfl, rfl, rfl, rfl⟩, by simp⟩
    | false =>
      obtain ⟨u, e, hexec, hres, hin, hcnt⟩ := exec_completes_of_not_read hr s
      have hport : Responds s (u.complete e) (responseWord e 0x00) := ⟨by simp [hres], hin, hcnt⟩
      refine ⟨_, _, hexec, hport, by simp, by simp, by simp, fun v => ?_⟩
      rw [exec_with_STATUS_of_not_read hr]
      exact ⟨_, _, hexec, hport, ⟨rfl, rfl, rfl, rfl, rfl⟩, fun _ => ⟨rfl, rfl⟩⟩

/-- Settles O9: at `State.reset` by definition, after a reset event by what that event does, and the table entry by
entry. -/
theorem resetLeavesTheStatedValues : Obligations.ResetLeavesTheStatedValues := by
  unfold Obligations.ResetLeavesTheStatedValues
  exact ⟨rfl, rfl, rfl, rfl, crctab_eq_tab, fun s rest h => ⟨_, step_reset h, by simp⟩⟩

end Sys2Proof.Machine

namespace Sys2Proof.Machine

/-! ## Which words the decoder refuses (R79, R80) -/

/-- A row refuses a word when a reserved field is nonzero or the row's constraint fails, and for nothing else. -/
theorem decodeRow_refuses_iff (reserved c : Bool) (r : IllegalReason) (i : Instr) :
    (∃ q, decodeRow reserved c r i = .illegal q) ↔ reserved = true ∨ c = false := by
  cases reserved <;> cases c <;> simp [decodeRow]

/-- Format N refuses a nonzero operand field. -/
theorem decodeN_refuses_iff (w : CommandWord) (i : Instr) :
    (∃ q, decodeN w i = .illegal q) ↔ idxField w ≠ 0 ∨ datField w ≠ 0 := by
  simp [decodeN, decodeRow_refuses_iff]

/-- Format I refuses a nonzero `dat` and an index outside the index space. -/
theorem decodeI_refuses_iff (w : CommandWord) (limit : Nat) (i : Byte → Instr) :
    (∃ q, decodeI w limit i = .illegal q) ↔ datField w ≠ 0 ∨ limit ≤ (idxField w).toNat := by
  simp [decodeI, decodeRow_refuses_iff]

/-- Format D refuses a nonzero `idx` and an operand past the row's limit. -/
theorem decodeD_refuses_iff (w : CommandWord) (limit : Nat) (i : Byte → Instr) :
    (∃ q, decodeD w limit i = .illegal q) ↔ idxField w ≠ 0 ∨ limit ≤ (datField w).toNat := by
  simp [decodeD, decodeRow_refuses_iff]

/-- Format X reserves no field: it refuses only an index outside the index space. -/
theorem decodeX_refuses_iff (w : CommandWord) (limit : Nat) (i : Byte → Byte → Instr) :
    (∃ q, decodeX w limit i = .illegal q) ↔ limit ≤ (idxField w).toNat := by
  simp [decodeX, decodeRow_refuses_iff]

/-- One of `dat[7:2]` is set exactly when the byte is past the operands of WRFLAGS (R106). -/
theorem flagsBits_ne_zero_iff : ∀ dat : Byte, dat.extractLsb' 2 6 ≠ 0#6 ↔ 4 ≤ dat.toNat := by decide

/-- The four items of R80 on the fields of a word: (a) the opcode is unassigned, (b) a field the format reserves is
nonzero, (c) an index lies outside its buffer, (d) the operand of WRFLAGS has one of its upper six bits set. -/
def MeetsAnIllegalItem (w : CommandWord) : Prop :=
  (opField w).toNat ∉ assignedOpcodes ∨
  ((opField w).toNat ∈ formatN ∧ (idxField w ≠ 0 ∨ datField w ≠ 0)) ∨
  ((opField w).toNat ∈ formatI ∧ datField w ≠ 0) ∨
  ((opField w).toNat ∈ formatD ∧ idxField w ≠ 0) ∨
  ((opField w).toNat ∈ [0x01, 0x02] ∧ 36 ≤ (idxField w).toNat) ∨
  ((opField w).toNat ∈ [0x03, 0x04] ∧ 48 ≤ (idxField w).toNat) ∨
  (opField w = 0x07 ∧ (datField w).extractLsb' 2 6 ≠ 0#6)

/-- A word is illegal exactly by the items of R80: row by row of the opcode map, what the row's format refuses is what
the items say of its opcode. A row whose limit is 256 refuses no operand, since every byte is below it. -/
theorem isIllegal_iff_meetsAnIllegalItem (w : CommandWord) : isIllegal w = true ↔ MeetsAnIllegalItem w := by
  have hidx : ¬ 256 ≤ (idxField w).toNat := Nat.not_le.mpr (idxField w).isLt
  have hdat : ¬ 256 ≤ (datField w).toNat := Nat.not_le.mpr (datField w).isLt
  have hop7 : opField w = 0x07 ↔ (opField w).toNat = 0x07 := BitVec.toNat_inj.symm
  simp only [isIllegal_iff, MeetsAnIllegalItem, assignedOpcodes, formatN, formatI, formatD, formatX, hop7,
    flagsBits_ne_zero_iff]
  unfold decodeWord
  split
  case h_1 hop | h_3 hop => simp [decodeX_refuses_iff, hop]
  case h_2 hop | h_4 hop | h_12 hop | h_13 hop => simp [decodeI_refuses_iff, hop, hidx]
  case h_5 hop | h_7 hop | h_15 hop => simp [decodeD_refuses_iff, hop, hdat]
  case h_24 =>
    -- every opcode of the map is excluded by the arm's own hypotheses
    exact iff_of_true ⟨_, rfl⟩ (.inl (by simp_all))
  case h_6 hop | h_8 hop | h_9 hop | h_10 hop | h_11 hop | h_14 hop | h_16 hop | h_17 hop | h_18 hop | h_19 hop |
      h_20 hop | h_21 hop | h_22 hop | h_23 hop =>
    simp [decodeN_refuses_iff, hop]

/-! ## A word at the port -/

/-- The word at the head of the stream is taken and executed on the rest of it (R62). -/
theorem step_command {s : State} {w : CommandWord} {rest : List PortEvent} (h : s.inputs = .command w :: rest) :
    step s = execWord w { s with inputs := rest } := by
  simp [step, takeInput_cons h, execEvent]

/-- The one response an illegal word gets (R80). -/
theorem illegal_responds (s : State) : Responds s s.illegal 0x0400 := ⟨rfl, rfl, rfl⟩

/-- The response of a well-formed command that is no `RD*`: its data is 0x00, and its status is `OK` or an error that
the table of R210 gives the command. -/
theorem exec_responds_of_not_read {i : Instr} (hr : isRead i = false) (hw : i.wf = true) (s : State) :
    ∃ t p, exec i s = .next t ∧ Responds s t p ∧
      (p = 0x0000 ∨
        (p = 0x0100 ∧ (i = .b64dec ∨ i = .decode)) ∨
        (p = 0x0200 ∧ (i = .ckchk ∨ i = .decode)) ∨
        (p = 0x0300 ∧ (i = .tagunpack ∨ i = .decode))) := by
  rcases exec_cases i s with ⟨_, hy, -⟩ | ⟨-, u, h, hres, hin, hcnt, -⟩ | ⟨e, h, he⟩
  · rw [hr] at hy; cases hy
  · exact ⟨_, 0x0000, h, ⟨by rw [State.complete_responses, hres]; rfl, hin, hcnt⟩, .inl rfl⟩
  · refine ⟨_, responseWord e 0x00, h, ⟨rfl, rfl, rfl⟩, .inr ?_⟩
    obtain ⟨-, ⟨rfl, hi⟩ | ⟨rfl, hi⟩ | ⟨rfl, hi⟩⟩ := he hw
    · exact .inl ⟨rfl, hi⟩
    · exact .inr (.inl ⟨rfl, hi⟩)
    · exact .inr (.inr ⟨rfl, hi⟩)

/-! ## The obligations -/

/-- Settles O3: the items by the rows of the opcode map, the effect by taking the word from the stream and raising
`ERR_ILLEGAL`. -/
theorem illegalExactlyByFourItems : Obligations.IllegalExactlyByFourItems := by
  unfold Obligations.IllegalExactlyByFourItems
  refine fun w => ⟨isIllegal_iff_meetsAnIllegalItem w, fun hill s rest hin => ?_⟩
  have hstep : step s = .next (State.illegal { s with inputs := rest }) := by
    rw [step_command hin, execWord_illegal hill]
  exact ⟨_, hstep, ⟨rfl, rfl, rfl, rfl, rfl⟩, rfl, rfl, rfl, rfl⟩

/-- Settles O14: an illegal word, a legal `RD*` and a legal other command each have their one response. -/
theorem everyWordIsAnsweredOnce : Obligations.EveryWordIsAnsweredOnce := by
  unfold Obligations.EveryWordIsAnsweredOnce
  intro w s
  cases hd : decodeWord w with
  | illegal r =>
    have hill : isIllegal w = true := (isIllegal_iff w).mpr ⟨r, hd⟩
    exact ⟨_, _, execWord_illegal hill s, illegal_responds s, fun _ => rfl, by simp, by simp⟩
  | legal i =>
    have hlegal : isIllegal w = false := by simp [isIllegal, hd]
    have hwf : i.wf = true := decodeWord_legal_wf hd
    simp only [execWord_legal hd, hlegal, Decoded.legal.injEq, forall_eq']
    cases hr : isRead i with
    | true => exact ⟨_, _, exec_read hr hwf s, ⟨rfl, rfl, rfl⟩, by simp, fun _ => rfl, by simp⟩
    | false =>
      obtain ⟨t, p, hexec, hport, hp⟩ := exec_responds_of_not_read hr hwf s
      exact ⟨t, p, hexec, hport, by simp, by simp, fun _ => hp⟩

end Sys2Proof.Machine

namespace Sys2Proof.Machine

/-! ## The access commands (spec/40_access.md R100 to R113): decoding the words the rules write out -/

/-- The decoder gives back a well-formed command from its word: the word has the row's opcode, its operands and zeros
in the reserved fields, and well-formedness is the limit the row checks (R70, R72, R76). -/
theorem decodeWord_encode {i : Instr} (hw : i.wf = true) : decodeWord (encode i) = .legal i := by
  cases i
  case wrb idx _ | wrt idx _ =>
    have hlt := Nat.lt_succ_of_le (of_decide_eq_true hw)
    simp [encode, decodeWord, decodeX, decodeRow, hlt]
  case rdb idx | rdt idx =>
    have hlt := Nat.lt_succ_of_le (of_decide_eq_true hw)
    simp [encode, decodeWord, decodeI, decodeRow, hlt]
  case wrflags dat =>
    have hlt := Nat.lt_succ_of_le (of_decide_eq_true hw)
    simp [encode, decodeWord, decodeD, decodeRow, hlt]
  case wrlen dat | crcbyte dat => simp [encode, decodeWord, decodeD, decodeRow, dat.isLt]
  case rdtabh idx | rdtabl idx => simp [encode, decodeWord, decodeI, decodeRow, idx.isLt]
  all_goals rfl

/-- Raising an error changes `STATUS` alone and responds its code beside 0x00 (R214). -/
theorem raise_raised (s : State) (e : Status) : Raised s (s.raise e) e.code :=
  ⟨⟨rfl, rfl, rfl, rfl, rfl⟩, rfl, rfl, rfl, rfl⟩

/-! Illegal words, by the items of R80 and with their effect. -/

/-- A word that meets an item of R80 has that rule's one effect, in every state. -/
theorem illegalAt_of_item {w : CommandWord} (h : MeetsAnIllegalItem w) (s : State) : IllegalAt w s :=
  have hill := (isIllegal_iff_meetsAnIllegalItem w).mpr h
  ⟨hill, s.illegal, execWord_illegal hill s, raise_raised s .errIllegal⟩

/-- A command of format N has one legal word; every other word of its opcode has a reserved field nonzero (R71, R79). -/
theorem illegalAt_formatN {op : Byte} (hop : op.toNat ∈ formatN) {w : CommandWord} (hw : opField w = op)
    (hne : w ≠ mkWord op 0 0) (s : State) : IllegalAt w s := by
  refine illegalAt_of_item (.inr (.inl ⟨hw ▸ hop, ?_⟩)) s
  by_contra hzero
  push Not at hzero
  obtain ⟨hidx, hdat⟩ := hzero
  exact hne (by rw [← mkWord_fields w, hw, hidx, hdat])

/-- Item (b) for format I, which reserves `dat`. -/
theorem illegalAt_formatI {op idx dat : Byte} (hop : op.toNat ∈ formatI) (hdat : dat ≠ 0) (s : State) :
    IllegalAt (mkWord op idx dat) s :=
  illegalAt_of_item (.inr (.inr (.inl (by simpa using ⟨hop, hdat⟩)))) s

/-- Item (b) for format D, which reserves `idx`. -/
theorem illegalAt_formatD {op idx dat : Byte} (hop : op.toNat ∈ formatD) (hidx : idx ≠ 0) (s : State) :
    IllegalAt (mkWord op idx dat) s :=
  illegalAt_of_item (.inr (.inr (.inr (.inl (by simpa using ⟨hop, hidx⟩))))) s

/-- Item (c) for WRB and RDB. -/
theorem illegalAt_frame_index {op idx dat : Byte} (hop : op.toNat ∈ [0x01, 0x02]) (hidx : 36 ≤ idx.toNat)
    (s : State) : IllegalAt (mkWord op idx dat) s :=
  illegalAt_of_item (.inr (.inr (.inr (.inr (.inl ⟨by simpa using hop, by simpa using hidx⟩))))) s

/-- Item (c) for WRT and RDT. -/
theorem illegalAt_text_index {op idx dat : Byte} (hop : op.toNat ∈ [0x03, 0x04]) (hidx : 48 ≤ idx.toNat)
    (s : State) : IllegalAt (mkWord op idx dat) s :=
  illegalAt_of_item (.inr (.inr (.inr (.inr (.inr (.inl ⟨by simpa using hop, by simpa using hidx⟩)))))) s

/-- Item (d): the operand of WRFLAGS. -/
theorem illegalAt_flags_operand {idx dat : Byte} (hdat : dat.extractLsb' 2 6 ≠ 0#6) (s : State) :
    IllegalAt (mkWord 0x07 idx dat) s :=
  illegalAt_of_item (.inr (.inr (.inr (.inr (.inr (.inr (by simpa using hdat))))))) s

/-! What the reads answer. -/

/-- A well-formed `RD*` changes nothing of the block and responds `OK` beside the value it reads (R29, R100). -/
theorem exec_read_responds {i : Instr} (hr : isRead i = true) (hw : i.wf = true) {s : State} {d : Byte}
    (hd : readValue s i = d) : ∃ t, exec i s = .next t ∧ SameBlock s t ∧ Responds s t (0x00#8 ++ d) :=
  ⟨s.answer d, hd ▸ exec_read hr hw s, ⟨rfl, rfl, rfl, rfl, rfl, rfl⟩, rfl, rfl, rfl⟩

/-- The response of a well-formed `RD*`, where only that is asked. -/
theorem exec_read_response {i : Instr} (hr : isRead i = true) (hw : i.wf = true) {s : State} {d : Byte}
    (hd : readValue s i = d) : ∃ t, exec i s = .next t ∧ Responds s t (0x00#8 ++ d) := by
  obtain ⟨t, hexec, -, hport⟩ := exec_read_responds hr hw hd
  exact ⟨t, hexec, hport⟩

theorem readValue_rdb (s : State) {idx : Byte} (h : idx.toNat < 36) : readValue s (.rdb idx) = s.B[idx.toNat] := by
  simp [readValue, h]

theorem readValue_rdt (s : State) {idx : Byte} (h : idx.toNat < 48) : readValue s (.rdt idx) = s.T[idx.toNat] := by
  simp [readValue, h]

theorem readValue_rdcrch (s : State) : readValue s .rdcrch = hiByte s.CRC := (hiByte_eq _).symm

theorem readValue_rdcrcl (s : State) : readValue s .rdcrcl = loByte s.CRC := (loByte_eq _).symm

theorem readValue_rdtabh (s : State) (idx : Byte) : readValue s (.rdtabh idx) = hiByte (tab idx) := by
  rw [hiByte_eq, ← crctab_eq_tab]; rfl

theorem readValue_rdtabl (s : State) (idx : Byte) : readValue s (.rdtabl idx) = loByte (tab idx) := by
  rw [loByte_eq, ← crctab_eq_tab]; rfl

/-! What the writes with a checked operand do when it is in range (R101, R103, R106). -/

theorem exec_wrb {idx : Byte} (h : idx.toNat < 36) (dat : Byte) (s : State) :
    exec (.wrb idx dat) s = .next ((s.setB ⟨idx.toNat, h⟩ dat).complete .ok) := by
  simp [exec, execWrb, frameIndex_of_lt h]

theorem exec_wrt {idx : Byte} (h : idx.toNat < 48) (dat : Byte) (s : State) :
    exec (.wrt idx dat) s = .next ((s.setT ⟨idx.toNat, h⟩ dat).complete .ok) := by
  simp [exec, execWrt, textIndex_of_lt h]

theorem exec_wrflags {dat : Byte} (h : dat.extractLsb' 2 6 = 0#6) (s : State) :
    exec (.wrflags dat) s = .next ((s.setFLAGS (dat.getLsbD 0) (dat.getLsbD 1)).complete .ok) := by
  simp [exec, execWrflags, flagsOperand, h]

/-- The flag register that the two low bits of an operand give, as R106 writes it. -/
theorem packFlags_getLsbD (dat : Byte) :
    packFlags (dat.getLsbD 0) (dat.getLsbD 1) = 0#6 ++ dat.extractLsb' 1 1 ++ dat.extractLsb' 0 1 := by
  revert dat; decide

/-- A register whose hardwired bits are 0 reads as itself (R24). -/
theorem and_three_of_hardwired_zero : ∀ f : Byte, f &&& 0xFC = 0 → f &&& 0x03 = f := by decide

/-! What DECODE and B64DEC do on the states the access examples speak of (R150, R183). -/

theorem textFrame_of_TLEN_ne {s : State} (h : s.TLEN ≠ 48) : textFrame s = none := if_neg h

theorem exec_decode_of_no_frame {s : State} (h : textFrame s = none) :
    exec .decode s = .next (s.raise .errFormat) := by
  simp [exec, execDecode, decodeText, h]

theorem exec_b64dec_of_no_frame {s : State} (h : textFrame s = none) :
    exec .b64dec s = .next (s.raise .errFormat) := by
  simp [exec, execB64dec, b64decode, h]

theorem exec_decode_of_bad_checksum {s : State} {f : FrameBytes} (hf : textFrame s = some f)
    (hc : payloadChecksum f ≠ storedChecksum f) : exec .decode s = .next (s.raise .errChecksum) := by
  simp [exec, execDecode, decodeText, hf, hc]

/-- A DECODE that leaves `OK` in `STATUS` has put the flags of its tag byte into `FLAGS` (R183). -/
theorem decode_ok_flags {s t : State} (h : exec .decode s = .next t) (hok : t.STATUS = 0x00) :
    ∃ bnc tst, flagsOf t.B[0] = some (bnc, tst) ∧ t.FLAGS = packFlags bnc tst := by
  obtain rfl : decodeText s = t := Host.Outcome.next.inj h
  rcases decodeText_cases s with ⟨-, ht⟩ | ⟨f, -, -, ht⟩ | ⟨f, -, -, -, ht⟩ | ⟨f, bnc, tst, -, -, htag, ht⟩
  case inr.inr.inr => rw [ht]; exact ⟨bnc, tst, htag, rfl⟩
  all_goals
    rw [ht] at hok
    cases hok

/-! ## The obligations -/

/-- Settles O19: below 36 the indexed cell is written and the command completes with `OK`; from 36 on the word meets
item (c) of R80. -/
theorem wrbWritesOneFrameCell : Obligations.WrbWritesOneFrameCell := by
  unfold Obligations.WrbWritesOneFrameCell
  refine ⟨rfl, fun s idx dat =>
    ⟨fun h => ⟨?_, _, exec_wrb h dat s, ?_⟩, fun h => illegalAt_frame_index (by decide) h s⟩⟩
  · exact decodeWord_encode (i := .wrb idx dat) (decide_eq_true (Nat.le_of_lt_succ h))
  · have hother (k : Fin 36) (hk : k.val ≠ idx.toNat) : (s.setB ⟨idx.toNat, h⟩ dat).getB k = s.getB k :=
      State.getB_setB_other s (Fin.ne_of_val_ne hk) dat
    exact ⟨State.getB_setB_same s ⟨idx.toNat, h⟩ dat, hother, rfl, rfl, rfl, rfl, rfl, rfl, rfl, rfl⟩

/-- Settles O20: the read answers the indexed cell, after WRB the byte just written; a word outside the row has its
index out of range or its reserved field nonzero. -/
theorem rdbReadsOneFrameCell : Obligations.RdbReadsOneFrameCell := by
  unfold Obligations.RdbReadsOneFrameCell
  refine ⟨rfl, fun s => ?_, fun s idx dat => ⟨fun h => ?_, ?_⟩⟩
  · have hread : readValue ((s.setB 1 0xFF).complete .ok) (.rdb 1) = 0xFF :=
      (readValue_rdb _ (by decide)).trans (State.getB_setB_same s 1 0xFF)
    obtain ⟨u, hexec, hport⟩ := exec_read_response rfl rfl hread
    exact ⟨_, u, exec_wrb (by decide) 0xFF s, hexec, hport⟩
  · have hw : (Instr.rdb idx).wf = true := decide_eq_true (Nat.le_of_lt_succ h)
    exact ⟨decodeWord_encode (i := .rdb idx) hw, exec_read_responds rfl hw (readValue_rdb s h)⟩
  · rintro (hidx | hdat)
    · exact illegalAt_frame_index (by decide) hidx s
    · exact illegalAt_formatI (by decide) hdat s

/-- Settles O21: below 48 the indexed cell is written, whatever the character, and the command completes with `OK`;
from 48 on the word meets item (c) of R80. -/
theorem wrtWritesOneTextCell : Obligations.WrtWritesOneTextCell := by
  unfold Obligations.WrtWritesOneTextCell
  refine ⟨rfl, fun s idx dat =>
    ⟨fun h => ⟨?_, _, exec_wrt h dat s, ?_⟩, fun h => illegalAt_text_index (by decide) h s⟩⟩
  · exact decodeWord_encode (i := .wrt idx dat) (decide_eq_true (Nat.le_of_lt_succ h))
  · have hother (k : Fin 48) (hk : k.val ≠ idx.toNat) : (s.setT ⟨idx.toNat, h⟩ dat).getT k = s.getT k :=
      State.getT_setT_other s (Fin.ne_of_val_ne hk) dat
    exact ⟨State.getT_setT_same s ⟨idx.toNat, h⟩ dat, hother, rfl, rfl, rfl, rfl, rfl, rfl, rfl, rfl⟩

/-- Settles O22: the read answers the indexed cell in every state, whatever `TLEN` holds. -/
theorem rdtReadsOneTextCell : Obligations.RdtReadsOneTextCell := by
  unfold Obligations.RdtReadsOneTextCell
  refine ⟨rfl, fun s idx dat => ⟨fun h => ?_, ?_⟩⟩
  · have hw : (Instr.rdt idx).wf = true := decide_eq_true (Nat.le_of_lt_succ h)
    exact ⟨decodeWord_encode (i := .rdt idx) hw, exec_read_responds rfl hw (readValue_rdt s h)⟩
  · rintro (hidx | hdat)
    · exact illegalAt_text_index (by decide) hidx s
    · exact illegalAt_formatI (by decide) hdat s

/-- Settles O23: WRLEN writes the length register, and with any length but 48 there is no frame to decode. -/
theorem wrlenWritesTheTextLength : Obligations.WrlenWritesTheTextLength := by
  unfold Obligations.WrlenWritesTheTextLength
  refine ⟨rfl, fun s idx dat =>
    ⟨⟨decodeWord_encode (i := .wrlen dat) rfl, ?_⟩, fun h => illegalAt_formatD (by decide) h s⟩⟩
  refine ⟨(s.setTLEN dat).complete .ok, rfl, rfl, rfl, rfl, rfl, rfl, rfl, ⟨rfl, rfl, rfl⟩, fun hne => ?_⟩
  have hnone : textFrame ((s.setTLEN dat).complete .ok) = none := textFrame_of_TLEN_ne hne
  exact ⟨⟨_, exec_decode_of_no_frame hnone, raise_raised _ .errFormat⟩,
    _, exec_b64dec_of_no_frame hnone, raise_raised _ .errFormat⟩

/-- Settles O24: an operand with bits 7:2 zero gives the two flags; another one, or a nonzero index, makes the word
illegal. -/
theorem wrflagsWritesTheFlagRegister : Obligations.WrflagsWritesTheFlagRegister := by
  unfold Obligations.WrflagsWritesTheFlagRegister
  refine ⟨rfl, fun s idx dat => ⟨fun h => ⟨?_, _, exec_wrflags h s, ?_⟩, ?_⟩⟩
  · have hlt : dat.toNat < 4 := Nat.not_le.mp fun hge => (flagsBits_ne_zero_iff dat).mpr hge h
    exact decodeWord_encode (i := .wrflags dat) (decide_eq_true (Nat.le_of_lt_succ hlt))
  · exact ⟨packFlags_getLsbD dat, rfl, rfl, rfl, rfl, rfl, rfl, rfl, rfl⟩
  · rintro (hdat | hidx)
    · exact illegalAt_flags_operand hdat s
    · exact illegalAt_formatD (by decide) hidx s

/-- Settles O25: RDLEN reads the length register, which ENCODE leaves at 48. -/
theorem rdlenReadsTheTextLength : Obligations.RdlenReadsTheTextLength := by
  unfold Obligations.RdlenReadsTheTextLength
  refine fun s => ⟨rfl, exec_read_responds rfl rfl rfl, fun w hop hne => illegalAt_formatN (by decide) hop hne s, ?_⟩
  obtain ⟨-, -, -, hlen, -⟩ := encodeFrame_fields s
  obtain ⟨u, hexec, hport⟩ := exec_read_response (i := .rdlen) rfl rfl hlen
  exact ⟨encodeFrame s, u, rfl, hexec, hport⟩

/-- Settles O26: RDFLAGS masks the hardwired bits, and a DECODE that succeeds on tag 0x91 has set both flags. -/
theorem rdflagsReadsTheFlagRegister : Obligations.RdflagsReadsTheFlagRegister := by
  unfold Obligations.RdflagsReadsTheFlagRegister
  refine fun s => ⟨rfl, exec_read_responds rfl rfl rfl, fun w hop hne => illegalAt_formatN (by decide) hop hne s,
    fun ⟨hhardwired, _⟩ => and_three_of_hardwired_zero _ hhardwired, fun t hdecode hok htag => ?_⟩
  obtain ⟨bnc, tst, hflags, hreg⟩ := decode_ok_flags hdecode hok
  obtain ⟨rfl, rfl⟩ : bnc = true ∧ tst = true := by
    rw [htag] at hflags
    simpa [flagsOf, eq_comm] using hflags
  have hread : readValue t .rdflags = 0x03 := congrArg (· &&& 0x03) hreg
  exact exec_read_response rfl rfl hread

/-- Settles O27: a read does not touch `STATUS`, so a second RDSTATUS answers the same; a DECODE whose checksum fails
has recorded 0x02. -/
theorem rdstatusReadsTheStatus : Obligations.RdstatusReadsTheStatus := by
  unfold Obligations.RdstatusReadsTheStatus
  refine fun s => ⟨rfl, exec_read_responds rfl rfl rfl, fun w hop hne => illegalAt_formatN (by decide) hop hne s, ?_,
    fun f hlen hf hbad => ?_⟩
  · exact ⟨s.answer s.STATUS, (s.answer s.STATUS).answer s.STATUS, rfl, rfl, ⟨rfl, rfl, rfl⟩, ⟨rfl, rfl, rfl⟩⟩
  · have hframe : textFrame s = some f := (if_pos hlen).trans hf
    obtain ⟨u, hexec, hport⟩ := exec_read_response (i := .rdstatus) (s := s.raise .errChecksum) (d := 0x02) rfl rfl rfl
    exact ⟨_, u, exec_decode_of_bad_checksum hframe hbad, hexec, hport⟩

/-- Settles O28: RDCRCH reads the high byte of `CRC`. -/
theorem rdcrchReadsTheHighHalf : Obligations.RdcrchReadsTheHighHalf := by
  unfold Obligations.RdcrchReadsTheHighHalf
  refine fun s => ⟨rfl, exec_read_responds rfl rfl (readValue_rdcrch s),
    fun w hop hne => illegalAt_formatN (by decide) hop hne s, fun hcrc => ?_⟩
  exact exec_read_response (d := 0x31) rfl rfl ((readValue_rdcrch s).trans (congrArg hiByte hcrc))

/-- Settles O29: RDCRCL reads the low byte of `CRC`. -/
theorem rdcrclReadsTheLowHalf : Obligations.RdcrclReadsTheLowHalf := by
  unfold Obligations.RdcrclReadsTheLowHalf
  refine fun s => ⟨rfl, exec_read_responds rfl rfl (readValue_rdcrcl s),
    fun w hop hne => illegalAt_formatN (by decide) hop hne s, fun hcrc => ?_⟩
  exact exec_read_response (d := 0xC3) rfl rfl ((readValue_rdcrcl s).trans (congrArg loByte hcrc))

/-- Settles O30: RDTABH reads the high byte of the generator's table value, which is the printed entry. -/
theorem rdtabhReadsTheTableHigh : Obligations.RdtabhReadsTheTableHigh := by
  unfold Obligations.RdtabhReadsTheTableHigh
  refine ⟨rfl, fun s => exec_read_response (d := 0x10) rfl rfl (readValue_rdtabh s 1), fun s idx dat =>
    ⟨⟨decodeWord_encode (i := .rdtabh idx) rfl, ?_⟩, fun h => illegalAt_formatI (by decide) h s⟩⟩
  obtain ⟨t, hexec, hsame, hport⟩ := exec_read_responds rfl rfl (readValue_rdtabh s idx)
  exact ⟨t, hexec, hsame, hport, (crctab_eq_tab idx).symm⟩

/-- Settles O31: RDTABL reads the low byte of the generator's table value, which is the printed entry. -/
theorem rdtablReadsTheTableLow : Obligations.RdtablReadsTheTableLow := by
  unfold Obligations.RdtablReadsTheTableLow
  refine ⟨rfl, fun s => exec_read_response (d := 0xF0) rfl rfl (readValue_rdtabl s 255), fun s idx dat =>
    ⟨⟨decodeWord_encode (i := .rdtabl idx) rfl, ?_⟩, fun h => illegalAt_formatI (by decide) h s⟩⟩
  obtain ⟨t, hexec, hsame, hport⟩ := exec_read_responds rfl rfl (readValue_rdtabl s idx)
  exact ⟨t, hexec, hsame, hport, (crctab_eq_tab idx).symm⟩

end Sys2Proof.Machine

namespace Sys2Proof.Machine

/-! ## The checksum generator (spec/41_crc.md R121 to R123, R131) -/

theorem crcFold_append (r : Crc16) (a b : List Byte) : crcFold r (a ++ b) = crcFold (crcFold r a) b :=
  List.foldl_append

/-- A message bit equal to the bit shifted out feeds nothing back: the step is a shift alone. -/
theorem crcBit_of_top_eq {r : Crc16} {b : Bool} (h : r.getLsbD 15 = b) : crcBit r b = r <<< 1 := by
  subst h
  simp [crcBit]

/-- A message byte equal to the high half of the register is used up by it: the low half moves up. -/
theorem crcByte_hiByte (r : Crc16) : crcByte r (hiByte r) = r <<< 8 := by
  have hbit (k m : Nat) (h : k + m = 7) : crcBit (r <<< k) ((hiByte r).getLsbD m) = r <<< (k + 1) := by
    have htop : (r <<< k).getLsbD 15 = (hiByte r).getLsbD m := by
      rw [BitVec.getLsbD_shiftLeft, hiByte, BitVec.getLsbD_extractLsb', show 15 - k = 8 + m by omega]
      simp [show ¬ 15 < k by omega, show m < 8 by omega]
    rw [crcBit_of_top_eq htop, BitVec.shiftLeft_add]
  have hfirst : crcBit r ((hiByte r).getLsbD 7) = r <<< 1 := by
    simpa only [BitVec.shiftLeft_zero] using hbit 0 7 rfl
  simp only [crcByte, hfirst, hbit, Nat.reduceAdd]

/-- The lowest bit of the register after a bit step says whether the polynomial was fed back. -/
theorem crcBit_getLsbD_zero (r : Crc16) (b : Bool) : (crcBit r b).getLsbD 0 = (r.getLsbD 15 ^^ b) := by
  rw [crcBit_eq]
  cases r.getLsbD 15 ^^ b <;> simp [crcPoly]

/-- A bit step loses nothing: the feedback tells the bit shifted out, the shift the other fifteen. -/
theorem crcBit_injective (b : Bool) : Function.Injective (crcBit · b) := by
  intro r q (h : crcBit r b = crcBit q b)
  have htop : r.getLsbD 15 = q.getLsbD 15 := by
    have hlow := congrArg (·.getLsbD 0) h
    simpa only [crcBit_getLsbD_zero, Bool.xor_left_inj] using hlow
  have hshift : r <<< 1 = q <<< 1 := by
    simpa only [crcBit_eq, htop, BitVec.xor_left_inj] using h
  ext i hi
  rcases Nat.lt_or_eq_of_le (Nat.le_of_lt_succ hi) with hlt | rfl
  · simpa [show i + 1 < 16 by omega] using congrArg (·.getLsbD (i + 1)) hshift
  · simpa using htop

theorem crcByte_injective (v : Byte) : Function.Injective (crcByte · v) := by
  intro r q (h : crcByte r v = crcByte q v)
  simpa only [crcByte, (crcBit_injective _).eq_iff] using h

/-- No byte clears every register. -/
theorem exists_crcByte_ne_zero (v : Byte) : ∃ r, crcByte r v ≠ 0 := by
  by_contra hzero
  push Not at hzero
  exact absurd (crcByte_injective v ((hzero 0).trans (hzero 1).symm)) (by decide)

theorem hiByte_append (a b : Byte) : hiByte (a ++ b) = a := responseStatus_append a b

theorem loByte_append (a b : Byte) : loByte (a ++ b) = b := responseData_append a b

/-- The register's own two halves, high byte first, clear it. -/
theorem crcFold_halves (r : Crc16) : crcFold r [hiByte r, loByte r] = 0x0000 := by
  have hlow : hiByte (r <<< 8) = loByte r := by
    ext k hk
    simp [hiByte, loByte, show 8 + k < 16 by omega, BitVec.getLsbD_eq_getElem (show k < 16 by omega)]
  calc crcFold r [hiByte r, loByte r]
    _ = crcByte (r <<< 8) (hiByte (r <<< 8)) := by simp only [crcFold_cons, crcFold_nil, crcByte_hiByte, hlow]
    _ = r <<< 16 := by rw [crcByte_hiByte, ← BitVec.shiftLeft_add]
    _ = 0x0000 := BitVec.shiftLeft_eq_zero (by decide)

/-- Two bytes clear the register exactly when they are its two halves, high byte first. -/
theorem crcFold_two_eq_zero_iff (r : Crc16) (a b : Byte) : crcFold r [a, b] = 0x0000 ↔ r = a ++ b := by
  have hab : crcFold (a ++ b) [a, b] = 0x0000 := by
    simpa only [hiByte_append, loByte_append] using crcFold_halves (a ++ b)
  rw [← hab]
  exact ((crcByte_injective b).comp (crcByte_injective a)).eq_iff

/-! The checksum of a frame (R130, R131). -/

theorem toList_eq_payload_append (f : FrameBytes) : f.toList = payload f ++ [f[34], f[35]] := by
  apply List.ext_getElem
  · simp [payload]
  · intro i h _
    have hi : i < 36 := by simpa using h
    rcases Nat.lt_or_ge i 34 with hlt | hge
    · simp [payload, hlt]
    · obtain rfl | rfl : i = 34 ∨ i = 35 := by omega
      all_goals simp [payload]

/-- R131's equivalent test: the checksum over the whole frame, checksum field included, is zero. -/
theorem checksumOk_iff_crc16_eq_zero (f : FrameBytes) : ChecksumOk f ↔ crc16 f.toList = 0x0000 := by
  rw [toList_eq_payload_append, crc16_eq, crcFold_append, crcFold_two_eq_zero_iff]
  rfl

/-- The payload is the first 34 cells and nothing more. -/
theorem payload_congr {f g : FrameBytes} (h : ∀ k : Fin 36, k.val < 34 → f[k] = g[k]) : payload f = payload g := by
  apply List.ext_getElem
  · simp [payload]
  · intro i hi _
    have hlt : i < 34 := by simpa [payload_length] using hi
    simpa [payload] using h ⟨i, by omega⟩ hlt

theorem payloadChecksum_withChecksum (f : FrameBytes) (c : Crc16) :
    payloadChecksum (withChecksum f c) = payloadChecksum f :=
  congrArg crc16 (payload_withChecksum f c)

theorem storedChecksum_withChecksum (f : FrameBytes) (c : Crc16) : storedChecksum (withChecksum f c) = c := by
  rw [storedChecksum, withChecksum_get_34, withChecksum_get_35, hiByte_append_loByte]

theorem withChecksum_withChecksum (f : FrameBytes) (c : Crc16) :
    withChecksum (withChecksum f c) c = withChecksum f c := by
  ext i hi
  simp only [withChecksum, Vector.getElem_set]
  split_ifs <;> rfl

theorem payloadChecksum_zeros : payloadChecksum (Vector.replicate 36 0) = 0x0000 := by decide +kernel

theorem payloadChecksum_exampleFrame : payloadChecksum exampleFrame = 0x4048 := by decide +kernel

/-! ## The checksum commands (R127 to R131) -/

theorem ckchk_of_checksumOk {s : State} (h : ChecksumOk s.B) :
    ckchk s = (s.setCRC (payloadChecksum s.B)).complete .ok := if_pos h

theorem ckchk_of_not_checksumOk {s : State} (h : ¬ ChecksumOk s.B) : ckchk s = s.raise .errChecksum := if_neg h

/-- CKGEN leaves a frame that passes CKCHK. -/
theorem checksumOk_ckgen (s : State) : ChecksumOk (ckgen s).B := by
  obtain ⟨hB, -⟩ := ckgen_fields s
  show payloadChecksum _ = storedChecksum _
  rw [hB, payloadChecksum_withChecksum, storedChecksum_withChecksum]

/-- A second CKGEN changes nothing. -/
theorem ckgen_ckgen_sameBlock (s : State) : SameBlock (ckgen s) (ckgen (ckgen s)) := by
  obtain ⟨hB, hCRC, -, -, -, hSTATUS, -⟩ := ckgen_fields s
  obtain ⟨hB', hCRC', hT, hTLEN, hFLAGS, hSTATUS', -⟩ := ckgen_fields (ckgen s)
  have hsame : payloadChecksum (ckgen s).B = payloadChecksum s.B := by rw [hB, payloadChecksum_withChecksum]
  refine ⟨?_, hT, hTLEN, hFLAGS, ?_, hSTATUS'.trans hSTATUS.symm⟩
  · rw [hB', hsame, hB, withChecksum_withChecksum]
  · rw [hCRC', hsame, hCRC]

/-- A run of CRCBYTE folds its bytes into the register (R123, R128). -/
theorem execAll_crcbyte (bs : List Byte) (s : State) :
    ∃ t, execAll (bs.map .crcbyte) s = .next t ∧ t.CRC = crcFold s.CRC bs := by
  induction bs generalizing s with
  | nil => exact ⟨s, rfl, rfl⟩
  | cons b bs ih => exact ih ((s.setCRC (crcByte s.CRC b)).complete .ok)

/-- CRCINIT and one CRCBYTE for each byte leave the checksum of the bytes (R123, R127, R128). -/
theorem execAll_crcinit_crcbyte (bs : List Byte) (s : State) :
    ∃ t, execAll (.crcinit :: bs.map .crcbyte) s = .next t ∧ t.CRC = crc16 bs :=
  execAll_crcbyte bs ((s.setCRC 0x0000).complete .ok)

/-- What any command can leave in `CRC` (R20, R22): the old value, or, by the six commands that write it, the value
each one's rule gives. -/
theorem exec_CRC_cases (i : Instr) (s : State) :
    ∃ t, exec i s = .next t ∧
      (t.CRC = s.CRC ∨
        (i = .crcinit ∧ t.CRC = 0x0000) ∨
        (∃ dat, i = .crcbyte dat ∧ t.CRC = crcByte s.CRC dat) ∨
        ((i = .ckgen ∨ i = .ckchk) ∧ t.CRC = payloadChecksum s.B) ∨
        (i = .encode ∧ t.CRC = payloadChecksum (builtFrame s)) ∨
        (i = .decode ∧ ∃ f, textFrame s = some f ∧ t.CRC = payloadChecksum f)) := by
  cases i
  case crcinit => exact ⟨_, rfl, .inr (.inl ⟨rfl, rfl⟩)⟩
  case crcbyte dat => exact ⟨_, rfl, .inr (.inr (.inl ⟨dat, rfl, rfl⟩))⟩
  case ckgen =>
    obtain ⟨-, hCRC, -⟩ := ckgen_fields s
    exact ⟨_, rfl, .inr (.inr (.inr (.inl ⟨.inl rfl, hCRC⟩)))⟩
  case ckchk =>
    rcases ckchk_cases s with ⟨-, h⟩ | ⟨-, h⟩
    · exact ⟨_, congrArg Host.Outcome.next h, .inr (.inr (.inr (.inl ⟨.inr rfl, rfl⟩)))⟩
    · exact ⟨_, congrArg Host.Outcome.next h, .inl rfl⟩
  case encode =>
    obtain ⟨-, hCRC, -⟩ := encodeFrame_fields s
    exact ⟨_, rfl, .inr (.inr (.inr (.inr (.inl ⟨rfl, hCRC⟩))))⟩
  case decode =>
    rcases decodeText_cases s with ⟨-, h⟩ | ⟨_, -, -, h⟩ | ⟨_, -, -, -, h⟩ | ⟨f, _, _, hf, -, -, h⟩
    case inr.inr.inr =>
      exact ⟨_, congrArg Host.Outcome.next h, .inr (.inr (.inr (.inr (.inr ⟨rfl, f, hf, rfl⟩))))⟩
    all_goals exact ⟨_, congrArg Host.Outcome.next h, .inl rfl⟩
  case b64enc =>
    obtain ⟨-, -, -, hCRC, -⟩ := b64encode_fields s
    exact ⟨_, rfl, .inl hCRC⟩
  case tagpack =>
    obtain ⟨-, -, -, -, hCRC, -⟩ := tagpack_fields s
    exact ⟨_, rfl, .inl hCRC⟩
  case wrb idx dat =>
    rcases execWrb_cases idx dat s with ⟨_, -, h⟩ | ⟨-, h⟩ <;> exact ⟨_, h, .inl rfl⟩
  case rdb idx =>
    rcases execRdb_cases idx s with ⟨_, -, h⟩ | ⟨-, h⟩ <;> exact ⟨_, h, .inl rfl⟩
  case wrt idx dat =>
    rcases execWrt_cases idx dat s with ⟨_, -, h⟩ | ⟨-, h⟩ <;> exact ⟨_, h, .inl rfl⟩
  case rdt idx =>
    rcases execRdt_cases idx s with ⟨_, -, h⟩ | ⟨-, h⟩ <;> exact ⟨_, h, .inl rfl⟩
  case wrflags dat =>
    rcases execWrflags_cases dat s with ⟨_, _, -, h⟩ | ⟨-, h⟩ <;> exact ⟨_, h, .inl rfl⟩
  case b64dec =>
    rcases b64decode_cases s with ⟨_, -, h⟩ | ⟨-, h⟩ <;> exact ⟨_, congrArg Host.Outcome.next h, .inl rfl⟩
  case tagunpack =>
    rcases tagunpack_cases s with ⟨_, _, -, h⟩ | ⟨-, h⟩ <;> exact ⟨_, congrArg Host.Outcome.next h, .inl rfl⟩
  all_goals exact ⟨_, rfl, .inl rfl⟩

/-- The block after reset with the spec's example in the frame buffer and a given value in `CRC`. -/
def exampleState (c : Crc16) : State := { State.reset with B := exampleFrame, CRC := c }

/-- The example frame is the one ENCODE builds from its own workchain byte and hash (R181). -/
theorem builtFrame_exampleState (c : Crc16) : builtFrame (exampleState c) = exampleFrame := by
  have hFLAGS : (exampleState c).FLAGS = 0x00 := rfl
  have hB : (exampleState c).B = exampleFrame := rfl
  simp only [builtFrame, hFLAGS, hB]
  decide +kernel

/-- From a state with the example frame and a nonzero register no command but CRCINIT and CRCBYTE leaves `CRC` zero: a
command that writes it there writes the example's checksum. -/
theorem exec_exampleState_CRC_ne_zero {i : Instr} (hinit : i ≠ .crcinit) (hbyte : ∀ dat, i ≠ .crcbyte dat) :
    ∃ t, exec i (exampleState 0x0001) = .next t ∧ t.CRC ≠ 0x0000 := by
  obtain ⟨t, hexec, hCRC⟩ := exec_CRC_cases i (exampleState 0x0001)
  refine ⟨t, hexec, ?_⟩
  have hframe : payloadChecksum (exampleState 0x0001).B = 0x4048 := payloadChecksum_exampleFrame
  rcases hCRC with hCRC | ⟨hi, -⟩ | ⟨dat, hi, -⟩ | ⟨-, hCRC⟩ | ⟨-, hCRC⟩ | ⟨-, f, hf, -⟩
  · rw [hCRC]; decide
  · exact absurd hi hinit
  · exact absurd hi (hbyte dat)
  · rw [hCRC, hframe]; decide
  · rw [hCRC, builtFrame_exampleState, payloadChecksum_exampleFrame]; decide
  · rw [textFrame_of_TLEN_ne (by decide)] at hf
    cases hf

/-! ## The obligations -/

/-- Settles O32: CRCINIT clears the register, which the two reads then show; CRCBYTE is a bijection of the register, so
it leaves some value nonzero, and every other command leaves it nonzero from the example's state. -/
theorem crcinitClearsTheRegister : Obligations.CrcinitClearsTheRegister := by
  unfold Obligations.CrcinitClearsTheRegister
  refine ⟨fun s => ⟨rfl, ?_, fun w hop hne => illegalAt_formatN (by decide) hop hne s⟩, fun i hinit => ?_⟩
  · let t := (s.setCRC 0x0000).complete .ok
    have hzero : t.CRC = 0x0000 := rfl
    obtain ⟨u, hhigh, ⟨-, -, -, -, hCRC, -⟩, hportHigh⟩ :=
      exec_read_responds (i := .rdcrch) (d := 0x00) rfl rfl ((readValue_rdcrch t).trans (congrArg hiByte hzero))
    obtain ⟨v, hlow, hportLow⟩ := exec_read_response (i := .rdcrcl) (d := 0x00) rfl rfl
      ((readValue_rdcrcl u).trans (congrArg loByte (hCRC.trans hzero)))
    exact ⟨t, u, v, rfl, hzero, rfl, rfl, rfl, rfl, rfl, ⟨rfl, rfl, rfl⟩, hhigh, hportHigh, hlow, hportLow⟩
  · by_cases hbyte : ∃ dat, i = .crcbyte dat
    · obtain ⟨dat, rfl⟩ := hbyte
      obtain ⟨r, hr⟩ := exists_crcByte_ne_zero dat
      exact ⟨exampleState r, _, rfl, hr⟩
    · exact ⟨_, exec_exampleState_CRC_ne_zero hinit fun dat h => hbyte ⟨dat, h⟩⟩

/-- Settles O33: CRCBYTE puts the byte step into `CRC`, so that a run of it leaves the checksum of its bytes; the
values the rule prints are computed. -/
theorem crcbyteAdvancesTheRegister : Obligations.CrcbyteAdvancesTheRegister := by
  unfold Obligations.CrcbyteAdvancesTheRegister
  have hvalues : crcByte 0x0000 0x00 = 0x0000 ∧ crcByte 0xFFFF 0x00 = 0xE1F0 ∧ crcByte 0xFFFF 0xFF = 0xFF00 ∧
      crcByte 0x8000 0x00 = 0x9188 := by decide
  obtain ⟨hzero, hones, honesFF, htop⟩ := hvalues
  refine ⟨fun s idx dat =>
      ⟨⟨decodeWord_encode (i := .crcbyte dat) rfl, ?_⟩, fun h => illegalAt_formatD (by decide) h s⟩,
    hzero, hones, honesFF, htop, by decide +kernel, fun s => ?_⟩
  · exact ⟨_, rfl, rfl, rfl, rfl, rfl, rfl, rfl, rfl, rfl, rfl⟩
  · obtain ⟨t, hexec, hCRC⟩ := execAll_crcinit_crcbyte [0x31, 0x32, 0x33, 0x34, 0x35, 0x36, 0x37, 0x38, 0x39] s
    exact ⟨t, hexec, hCRC.trans (by decide +kernel)⟩

/-- Settles O34: CKGEN stores the payload's checksum, which covers none of the cells written, so a second CKGEN and a
CKCHK find it again. -/
theorem ckgenAppendsTheChecksum : Obligations.CkgenAppendsTheChecksum := by
  unfold Obligations.CkgenAppendsTheChecksum
  refine fun s => ⟨rfl, ?_, fun w hop hne => illegalAt_formatN (by decide) hop hne s⟩
  obtain ⟨hB, hCRC, hT, hTLEN, hFLAGS, hSTATUS, hport⟩ := ckgen_fields s
  have h34 : (ckgen s).B[34] = hiByte (payloadChecksum s.B) := by simp only [hB, withChecksum_get_34]
  have h35 : (ckgen s).B[35] = loByte (payloadChecksum s.B) := by simp only [hB, withChecksum_get_35]
  refine ⟨ckgen s, ckgen (ckgen s), ckchk (ckgen s), rfl, hCRC, h34, h35, fun k hk => ?_, hT, hTLEN, hFLAGS, hSTATUS,
    hport, fun hzeros => ?_, fun hexample => ?_, rfl, ckgen_ckgen_sameBlock s, rfl, ?_⟩
  · simpa [hB] using withChecksum_get_lt s.B (payloadChecksum s.B) hk
  · have hsum : payloadChecksum s.B = 0x0000 :=
      (congrArg crc16 (payload_congr (by simpa using hzeros))).trans payloadChecksum_zeros
    rw [h34, h35, hsum]
    decide
  · have hsum : payloadChecksum s.B = 0x4048 :=
      (congrArg crc16 (payload_congr hexample)).trans payloadChecksum_exampleFrame
    rw [hCRC, h34, h35, hsum]
    decide
  · rw [ckchk_of_checksumOk (checksumOk_ckgen s)]
    exact ⟨rfl, rfl, rfl⟩

/-- Settles O35: CKCHK commits or raises by R131's test, and that test is the generator's: the two stored bytes clear
the register exactly when they are its halves. -/
theorem ckchkComparesTheChecksum : Obligations.CkchkComparesTheChecksum := by
  unfold Obligations.CkchkComparesTheChecksum
  refine fun s => ⟨rfl, fun hok => ?_, fun hbad => ?_, checksumOk_iff_crc16_eq_zero s.B, fun hzeros => ?_,
    fun hexample => ?_, fun w hop hne => illegalAt_formatN (by decide) hop hne s⟩
  · exact ⟨_, congrArg Host.Outcome.next (ckchk_of_checksumOk hok), rfl, rfl, rfl, rfl, rfl, rfl, rfl, rfl, rfl⟩
  · exact ⟨_, congrArg Host.Outcome.next (ckchk_of_not_checksumOk hbad), raise_raised s .errChecksum⟩
  · have hframe : s.B = Vector.replicate 36 0 := by
      apply Vector.ext
      intro i hi
      simpa using hzeros ⟨i, hi⟩
    rw [hframe]
    decide +kernel
  · have hbad : ¬ ChecksumOk s.B := by
      rw [hexample]
      decide +kernel
    exact ⟨_, congrArg Host.Outcome.next (ckchk_of_not_checksumOk hbad), rfl, rfl, rfl⟩

end Sys2Proof.Machine

namespace Sys2Proof.Machine

/-! ## base64url (spec/42_base64url.md R144, R145) -/

/-- A frame whose 36 cells hold one byte is that byte repeated. -/
theorem frame_eq_replicate {f : FrameBytes} {v : Byte} (h : ∀ k : Fin 36, f[k] = v) : f = Vector.replicate 36 v := by
  apply Vector.ext
  intro i hi
  simpa using h ⟨i, hi⟩

theorem b64Enc_zeros : b64Enc (Vector.replicate 36 0x00) = Vector.replicate 48 0x41 := by decide +kernel

theorem b64Enc_ones : b64Enc (Vector.replicate 36 0xFF) = Vector.replicate 48 0x5F := by decide +kernel

theorem b64Enc_exampleFrame : b64Enc exampleFrame = exampleText := by decide +kernel

theorem b64Dec_exampleText : b64Dec exampleText = some exampleFrame := by decide +kernel

/-- A text decodes unless one of its cells is outside the alphabet, and for no other reason (R145). -/
theorem b64Dec_eq_none_iff (x : TextCells) : b64Dec x = none ↔ ∃ j : Fin 48, b64Val x[j] = none := by
  refine ⟨fun hnone => ?_, b64Dec_of_invalid⟩
  rcases b64Dec_cases x with ⟨-, hsome⟩ | ⟨hcell, -⟩
  · rw [hsome] at hnone; cases hnone
  · exact hcell

/-- `=` is padding, which the alphabet does not have: in any cell it makes the text invalid (R142, R145). -/
theorem b64Dec_set_padding (x : TextCells) (j : Fin 48) : b64Dec (x.set j 0x3D) = none := by
  have hcell : (x.set j 0x3D)[j] = 0x3D#8 := by simp
  exact b64Dec_of_invalid ⟨j, hcell ▸ by decide⟩

/-! ## The base64url commands (R148, R150) -/

/-- A second B64ENC changes nothing: it reads `B` alone, which the first has left as it was. -/
theorem b64encode_b64encode_sameBlock (s : State) : SameBlock (b64encode s) (b64encode (b64encode s)) := by
  obtain ⟨hT, hTLEN, hB, -, -, hSTATUS, -⟩ := b64encode_fields s
  obtain ⟨hT', hTLEN', hB', hCRC', hFLAGS', hSTATUS', -⟩ := b64encode_fields (b64encode s)
  refine ⟨hB', ?_, hTLEN'.trans hTLEN.symm, hFLAGS', hCRC', hSTATUS'.trans hSTATUS.symm⟩
  rw [hT', hB, hT]

theorem textFrame_of_TLEN_eq {s : State} (h : s.TLEN = 48) : textFrame s = b64Dec s.T := if_pos h

theorem exec_b64dec_of_frame {s : State} {f : FrameBytes} (h : textFrame s = some f) :
    exec .b64dec s = .next ((s.setFrame f).complete .ok) := by
  simp [exec, execB64dec, b64decode, h]

/-- Without a frame in the text buffer, whatever the reason, B64DEC raises `ERR_FORMAT`. -/
theorem exec_b64dec_raises {s : State} (h : textFrame s = none) :
    ∃ t, exec .b64dec s = .next t ∧ Raised s t 0x01 :=
  ⟨_, exec_b64dec_of_no_frame h, raise_raised s .errFormat⟩

/-! ## The obligations -/

/-- Settles O36: the text is that of the frame, which B64ENC leaves in place, so a second one writes it again; the
texts the rule prints are computed. -/
theorem b64encEncodesTheFrame : Obligations.B64encEncodesTheFrame := by
  unfold Obligations.B64encEncodesTheFrame
  refine fun s => ⟨rfl, ?_, fun w hop hne => illegalAt_formatN (by decide) hop hne s⟩
  obtain ⟨hT, hTLEN, hB, hCRC, hFLAGS, hSTATUS, hport⟩ := b64encode_fields s
  refine ⟨b64encode s, b64encode (b64encode s), rfl, fun j => by rw [hT], hTLEN, hB, hCRC, hFLAGS, hSTATUS, hport,
    fun hzeros j => ?_, fun hones j => ?_, fun hexample => ?_, rfl, b64encode_b64encode_sameBlock s⟩
  · rw [hT, frame_eq_replicate hzeros, b64Enc_zeros]
    exact Vector.getElem_replicate _
  · rw [hT, frame_eq_replicate hones, b64Enc_ones]
    exact Vector.getElem_replicate _
  · rw [hT, hexample, b64Enc_exampleFrame]

/-- Settles O37: B64DEC commits the frame the text buffer holds or raises `ERR_FORMAT`, and it holds one exactly when
`TLEN` is 48 and every cell is in the alphabet. -/
theorem b64decDecodesTheText : Obligations.B64decDecodesTheText := by
  unfold Obligations.B64decDecodesTheText
  refine fun s => ⟨rfl, fun hlen => ?_, fun hlen hcell => ?_, fun f hlen hf => ?_, b64Dec_eq_none_iff s.T,
    fun hlen hexample => ?_, fun hlen hpadding => ?_, fun w hop hne => illegalAt_formatN (by decide) hop hne s⟩
  · exact exec_b64dec_raises (textFrame_of_TLEN_ne hlen)
  · exact exec_b64dec_raises ((textFrame_of_TLEN_eq hlen).trans (b64Dec_of_invalid hcell))
  · have hframe : textFrame s = some f := (textFrame_of_TLEN_eq hlen).trans hf
    exact ⟨_, exec_b64dec_of_frame hframe, rfl, rfl, rfl, rfl, rfl, rfl, rfl, rfl, rfl⟩
  · have hframe : textFrame s = some exampleFrame := by
      rw [textFrame_of_TLEN_eq hlen, hexample, b64Dec_exampleText]
    exact ⟨_, exec_b64dec_of_frame hframe, rfl, rfl, rfl, rfl⟩
  · have hnone : textFrame s = none := by
      rw [textFrame_of_TLEN_eq hlen, hpadding]
      exact b64Dec_set_padding exampleText 5
    obtain ⟨t, hexec, -, -, hport⟩ := exec_b64dec_raises hnone
    exact ⟨t, hexec, hport⟩

end Sys2Proof.Machine

namespace Sys2Proof.Machine

/-! ## The tag byte and the flag register (spec/43_frame.md R162, R164, R169, R170) -/

/-- The table of R162: the tag for each value of the two flags. -/
theorem tagOf_eq_table (bnc tst : Bool) :
    tagOf bnc tst = if bnc then (if tst then 0x91 else 0x11) else (if tst then 0xD1 else 0x51) := by
  cases bnc <;> cases tst <;> rfl

/-- The table of R164, with the two flags packed as TAGUNPACK writes them (R24). -/
theorem flagsOf_of_mem_table {t fl : Byte}
    (h : (t, fl) ∈ [(0x11#8, 0x01#8), (0x51, 0x00), (0x91, 0x03), (0xD1, 0x02)]) :
    ∃ bnc tst, flagsOf t = some (bnc, tst) ∧ packFlags bnc tst = fl := by
  simp only [List.mem_cons, List.not_mem_nil, or_false, Prod.mk.injEq] at h
  rcases h with ⟨rfl, rfl⟩ | ⟨rfl, rfl⟩ | ⟨rfl, rfl⟩ | ⟨rfl, rfl⟩
  · exact ⟨true, false, rfl, rfl⟩
  · exact ⟨false, false, rfl, rfl⟩
  · exact ⟨true, true, rfl, rfl⟩
  · exact ⟨false, true, rfl, rfl⟩

/-- Every byte but the four tags is unknown (R164). -/
theorem flagsOf_eq_none {t : Byte} (h : t ∉ [0x11#8, 0x51, 0x91, 0xD1]) : flagsOf t = none := by
  simp only [List.mem_cons, List.not_mem_nil, or_false, not_or] at h
  obtain ⟨h11, h51, h91, hD1⟩ := h
  exact (if_neg h11).trans ((if_neg h51).trans ((if_neg h91).trans (if_neg hD1)))

/-- A second TAGPACK changes nothing: the flags it reads are still there, and it writes the same cell again. -/
theorem tagpack_tagpack_sameBlock (s : State) : SameBlock (tagpack s) (tagpack (tagpack s)) := by
  obtain ⟨hB, -, -, hFLAGS, -, hSTATUS, -⟩ := tagpack_fields s
  obtain ⟨hB', hT, hTLEN, hFLAGS', hCRC, hSTATUS', -⟩ := tagpack_fields (tagpack s)
  refine ⟨?_, hT, hTLEN, hFLAGS', hCRC, hSTATUS'.trans hSTATUS.symm⟩
  rw [hB', hFLAGS, hB, Vector.set_set]

theorem exec_tagunpack_of_flags {s : State} {bnc tst : Bool} (h : flagsOf s.B[0] = some (bnc, tst)) :
    exec .tagunpack s = .next ((s.setFLAGS bnc tst).complete .ok) := by
  simp [exec, execTagunpack, tagunpack, State.getB_eq, h]

theorem exec_tagunpack_of_unknown_tag {s : State} (h : flagsOf s.B[0] = none) :
    exec .tagunpack s = .next (s.raise .errTag) := by
  simp [exec, execTagunpack, tagunpack, State.getB_eq, h]

/-! ## The workchain byte (R166, R167) -/

/-- The byte of a workchain in range, as a number: `w mod 256` has one representative there (R166). -/
theorem wcToByte_toNat {w : Int} (hlo : -128 ≤ w) (hhi : w ≤ 127) :
    ((wcToByte w).toNat : Int) = if 0 ≤ w then w else w + 256 := by
  have hmod : ((wcToByte w).toNat : Int) = w % 256 := by
    rw [wcToByte, BitVec.toNat_ofInt]
    exact Int.toNat_of_nonneg (Int.emod_nonneg _ (by decide))
  split <;> omega

/-- The signed reading gives back a workchain in range (R167). -/
theorem byteToWc_wcToByte {w : Int} (hlo : -128 ≤ w) (hhi : w ≤ 127) : byteToWc (wcToByte w) = w :=
  BitVec.toInt_ofInt_eq_self (by decide) hlo (Int.lt_add_one_of_le hhi)

theorem wcToByte_byteToWc (b : Byte) : wcToByte (byteToWc b) = b := BitVec.ofInt_toInt

/-- The signed reading by the two halves of the byte range (R167). -/
theorem byteToWc_eq (b : Byte) :
    byteToWc b = if b.toNat ≤ 127 then (b.toNat : Int) else (b.toNat : Int) - 256 := by
  rw [byteToWc, BitVec.toInt_eq_toNat_cond]
  split <;> split <;> omega

/-- No byte is invalid: every signed reading is a workchain in range (R167). -/
theorem byteToWc_mem_range (b : Byte) : -128 ≤ byteToWc b ∧ byteToWc b ≤ 127 :=
  ⟨BitVec.le_toInt b, Int.le_of_lt_add_one BitVec.toInt_lt⟩

/-! ## The obligations -/

/-- Settles O38: the tag is the table's value for the two flags, cell 0 is the one written, and writing it again from
the same flags changes nothing. -/
theorem tagpackBuildsTheTagByte : Obligations.TagpackBuildsTheTagByte := by
  unfold Obligations.TagpackBuildsTheTagByte
  refine fun s => ⟨rfl, ?_, fun w hop hne => illegalAt_formatN (by decide) hop hne s⟩
  obtain ⟨hB, hT, hTLEN, hFLAGS, hCRC, hSTATUS, hport⟩ := tagpack_fields s
  have htag : (tagpack s).B[0] = tagOf (bncOf s.FLAGS) (tstOf s.FLAGS) := by simp [hB]
  have hother (k : Fin 36) (hk : k.val ≠ 0) : (tagpack s).B[k] = s.B[k] :=
    State.getB_setB_other s (i := 0) (Fin.ne_of_val_ne hk) _
  exact ⟨tagpack s, tagpack (tagpack s), rfl, htag.trans (tagOf_eq_table _ _), hother, hT, hTLEN, hFLAGS, hCRC, hSTATUS,
    hport, rfl, tagpack_tagpack_sameBlock s⟩

/-- Settles O39: on one of the four tags TAGUNPACK commits the flags of the table, on any other byte it raises
`ERR_TAG`. -/
theorem tagunpackRecoversTheFlags : Obligations.TagunpackRecoversTheFlags := by
  unfold Obligations.TagunpackRecoversTheFlags
  refine fun s => ⟨rfl, fun fl hmem => ?_, fun hunknown => ?_,
    fun w hop hne => illegalAt_formatN (by decide) hop hne s⟩
  · obtain ⟨bnc, tst, hflags, hpack⟩ := flagsOf_of_mem_table hmem
    exact ⟨_, exec_tagunpack_of_flags hflags, hpack, rfl, rfl, rfl, rfl, rfl, rfl, rfl, rfl⟩
  · exact ⟨_, exec_tagunpack_of_unknown_tag (flagsOf_eq_none hunknown), raise_raised s .errTag⟩

/-- Settles O55: both directions of the round trip, over the range and over every byte; a wider two's-complement
register reads a sign-extended byte as the same integer. -/
theorem workchainByteRoundTrips : Obligations.WorkchainByteRoundTrips := by
  unfold Obligations.WorkchainByteRoundTrips
  refine ⟨fun w hlo hhi => ⟨wcToByte_toNat hlo hhi, byteToWc_wcToByte hlo hhi⟩, fun b => ?_, rfl, rfl, rfl, rfl⟩
  obtain ⟨hlo, hhi⟩ := byteToWc_mem_range b
  exact ⟨byteToWc_eq b, hlo, hhi, wcToByte_byteToWc b, fun n hn => (BitVec.toInt_signExtend_of_le hn).symm⟩

end Sys2Proof.Machine

namespace Sys2Proof.Machine

/-! ## base64url: decoding and encoding undo each other (spec/42_base64url.md R141 to R146) -/

theorem b64Val_b64Char : ∀ v : Sextet, b64Val (b64Char v) = some v := by decide

/-- A code of the alphabet is the character of its value. -/
theorem b64Char_of_b64Val : ∀ c : Byte, ∀ v ∈ b64Val c, b64Char v = c := by decide

/-! Group by group: 24 bits are not changed by cutting them into bytes or into sextets. -/

/-- Three bytes cut into sextets and joined again. -/
theorem unpackGroup_packGroup (a b c : Byte) :
    unpackGroup (packGroup a b c)[0] (packGroup a b c)[1] (packGroup a b c)[2] (packGroup a b c)[3] = #v[a, b, c] := by
  have hword : unpackGroup (packGroup a b c)[0] (packGroup a b c)[1] (packGroup a b c)[2] (packGroup a b c)[3] =
      #v[opField (mkWord a b c), idxField (mkWord a b c), datField (mkWord a b c)] :=
    congrArg (fun w => #v[opField w, idxField w, datField w]) (sextets_join (mkWord a b c))
  rw [hword, opField_mkWord, idxField_mkWord, datField_mkWord]

/-- What stands above the last sextet of a word. -/
theorem extractLsb'_append_sextet {n : Nat} (x : BitVec n) (t : Sextet) (k len : Nat) :
    (x ++ t).extractLsb' (6 + k) len = x.extractLsb' k len := by
  rw [BitVec.extractLsb'_append_eq_of_le (Nat.le_add_right 6 k), Nat.add_sub_cancel_left]

/-- The 24 bits that four sextets carry, first sextet in bits 23:18: the word whose bytes `unpackGroup` answers. -/
def sextetsWord (p q r t : Sextet) : BitVec 24 := ((p ++ q : BitVec 12) ++ r : BitVec 18) ++ t

theorem unpackGroup_eq (p q r t : Sextet) :
    unpackGroup p q r t = #v[(sextetsWord p q r t).extractLsb' 16 8, (sextetsWord p q r t).extractLsb' 8 8,
      (sextetsWord p q r t).extractLsb' 0 8] := rfl

/-- Four sextets cut into bytes and joined again. -/
theorem packGroup_unpackGroup (p q r t : Sextet) :
    packGroup (unpackGroup p q r t)[0] (unpackGroup p q r t)[1] (unpackGroup p q r t)[2] = #v[p, q, r, t] := by
  have hword (w : BitVec 24) : packGroup (w.extractLsb' 16 8) (w.extractLsb' 8 8) (w.extractLsb' 0 8) =
      #v[w.extractLsb' 18 6, w.extractLsb' 12 6, w.extractLsb' 6 6, w.extractLsb' 0 6] :=
    congrArg (fun w => #v[w.extractLsb' 18 6, w.extractLsb' 12 6, w.extractLsb' 6 6, w.extractLsb' 0 6]) (bytes_join w)
  have hp : (sextetsWord p q r t).extractLsb' 18 6 = p :=
    (extractLsb'_append_sextet _ t 12 6).trans
      ((extractLsb'_append_sextet _ r 6 6).trans BitVec.extractLsb'_append_eq_left)
  have hq : (sextetsWord p q r t).extractLsb' 12 6 = q :=
    (extractLsb'_append_sextet _ t 6 6).trans
      ((extractLsb'_append_sextet _ r 0 6).trans BitVec.extractLsb'_append_eq_right)
  have hr : (sextetsWord p q r t).extractLsb' 6 6 = r :=
    (extractLsb'_append_sextet _ t 0 6).trans BitVec.extractLsb'_append_eq_right
  have ht : (sextetsWord p q r t).extractLsb' 0 6 = t :=
    BitVec.extractLsb'_append_eq_right
  simp only [unpackGroup_eq, Vector.getElem_mk, List.getElem_toArray, List.getElem_cons_zero, List.getElem_cons_succ]
  rw [hword, hp, hq, hr, ht]

/-- The sextets of group `g` (R144). -/
theorem frameSextet_group (f : FrameBytes) {g k : Nat} (hg : g < 12) (hk : k < 4) :
    frameSextet f ⟨4 * g + k, by omega⟩ = (packGroup f[3 * g] f[3 * g + 1] f[3 * g + 2])[k] := by
  have hdiv : (4 * g + k) / 4 = g := by omega
  have hmod : (4 * g + k) % 4 = k := by omega
  simp only [frameSextet, hdiv, hmod]

/-- The bytes of group `g` (R145). -/
theorem sextetsByte_group (v : Vector Sextet 48) {g k : Nat} (hg : g < 12) (hk : k < 3) :
    sextetsByte v ⟨3 * g + k, by omega⟩ =
      (unpackGroup v[4 * g] v[4 * g + 1] v[4 * g + 2] v[4 * g + 3])[k] := by
  have hdiv : (3 * g + k) / 3 = g := by omega
  have hmod : (3 * g + k) % 3 = k := by omega
  simp only [sextetsByte, hdiv, hmod]

/-- The bytes that the sextets of a frame carry are the frame's. -/
theorem sextetsByte_frameSextet (f : FrameBytes) (i : Fin 36) :
    sextetsByte (Vector.ofFn (frameSextet f)) i = f[i] := by
  obtain ⟨i, hi⟩ := i
  obtain ⟨g, k, hg, hk, rfl⟩ : ∃ g k, g < 12 ∧ k < 3 ∧ i = 3 * g + k := ⟨i / 3, i % 3, by omega, by omega, by omega⟩
  have h0 := frameSextet_group f hg (k := 0) (by omega)
  have h1 := frameSextet_group f hg (k := 1) (by omega)
  have h2 := frameSextet_group f hg (k := 2) (by omega)
  have h3 := frameSextet_group f hg (k := 3) (by omega)
  simp only [Nat.add_zero] at h0
  simp only [sextetsByte_group _ hg hk, Vector.getElem_ofFn, h0, h1, h2, h3, unpackGroup_packGroup]
  obtain rfl | rfl | rfl : k = 0 ∨ k = 1 ∨ k = 2 := by omega
  all_goals rfl

/-- The sextets of the frame that 48 sextets carry are those. -/
theorem frameSextet_sextetsByte (v : Vector Sextet 48) (j : Fin 48) :
    frameSextet (Vector.ofFn (sextetsByte v)) j = v[j] := by
  obtain ⟨j, hj⟩ := j
  obtain ⟨g, k, hg, hk, rfl⟩ : ∃ g k, g < 12 ∧ k < 4 ∧ j = 4 * g + k := ⟨j / 4, j % 4, by omega, by omega, by omega⟩
  have h0 := sextetsByte_group v hg (k := 0) (by omega)
  have h1 := sextetsByte_group v hg (k := 1) (by omega)
  have h2 := sextetsByte_group v hg (k := 2) (by omega)
  simp only [Nat.add_zero] at h0
  simp only [frameSextet_group _ hg hk, Vector.getElem_ofFn, h0, h1, h2, packGroup_unpackGroup]
  obtain rfl | rfl | rfl | rfl : k = 0 ∨ k = 1 ∨ k = 2 ∨ k = 3 := by omega
  all_goals rfl

/-- The values of the cells of an encoded frame are its sextets. -/
theorem textValues_b64Enc (f : FrameBytes) : textValues (b64Enc f) = Vector.ofFn (frameSextet f) := by
  apply Vector.ext
  intro j hj
  simp [textValues, b64Enc, b64Val_b64Char]

/-- Decoding an encoded frame gives the frame back (R146). -/
theorem b64Dec_b64Enc (f : FrameBytes) : b64Dec (b64Enc f) = some f := by
  have hvalid (j : Fin 48) : (b64Val (b64Enc f)[j]).isSome = true := by rw [b64Enc_get, b64Val_b64Char]; rfl
  rw [b64Dec_of_valid hvalid, textValues_b64Enc]
  refine congrArg some (Vector.ext fun i hi => ?_)
  exact (Vector.getElem_ofFn hi).trans (sextetsByte_frameSextet f ⟨i, hi⟩)

/-- The text that decodes to a frame is the encoding of the frame: no second text does (R146). -/
theorem b64Enc_of_b64Dec {x : TextCells} {f : FrameBytes} (h : b64Dec x = some f) : b64Enc f = x := by
  rcases b64Dec_cases x with ⟨hvalid, hsome⟩ | ⟨-, hnone⟩
  · obtain rfl : Vector.ofFn (sextetsByte (textValues x)) = f := Option.some.inj (hsome.symm.trans h)
    apply Vector.ext
    intro j hj
    obtain ⟨v, hv⟩ := Option.isSome_iff_exists.mp (hvalid ⟨j, hj⟩)
    have hvalue : (textValues x)[j] = v := by simpa [textValues] using congrArg (·.getD 0) hv
    calc (b64Enc (Vector.ofFn (sextetsByte (textValues x))))[j]
      _ = b64Char (frameSextet (Vector.ofFn (sextetsByte (textValues x))) ⟨j, hj⟩) := b64Enc_get _ ⟨j, hj⟩
      _ = b64Char v := by rw [frameSextet_sextetsByte]; exact congrArg b64Char hvalue
      _ = x[j] := b64Char_of_b64Val _ _ hv
  · rw [hnone] at h; cases h

/-! ## Frames with a right checksum (spec/43_frame.md R161, R164, R172) -/

theorem ChecksumOk.get_34 {f : FrameBytes} (h : ChecksumOk f) : f[34] = hiByte (payloadChecksum f) :=
  ((congrArg hiByte h).trans (hiByte_append f[34] f[35])).symm

theorem ChecksumOk.get_35 {f : FrameBytes} (h : ChecksumOk f) : f[35] = loByte (payloadChecksum f) :=
  ((congrArg loByte h).trans (loByte_append f[34] f[35])).symm

/-- A frame with a right checksum is its payload and the two halves of the payload's checksum. -/
theorem ChecksumOk.toList_eq {f : FrameBytes} (h : ChecksumOk f) :
    f.toList = payload f ++ [hiByte (payloadChecksum f), loByte (payloadChecksum f)] := by
  rw [toList_eq_payload_append, ChecksumOk.get_34 h, ChecksumOk.get_35 h]

/-- Such a frame is determined by its payload. -/
theorem frame_eq_of_payload_eq {f g : FrameBytes} (hf : ChecksumOk f) (hg : ChecksumOk g)
    (h : payload f = payload g) : f = g := by
  rw [← Vector.toList_inj, ChecksumOk.toList_eq hf, ChecksumOk.toList_eq hg, payloadChecksum, payloadChecksum, h]

theorem checksumOk_zeros : ChecksumOk (Vector.replicate 36 0) := by decide +kernel

theorem checksumOk_exampleFrame : ChecksumOk exampleFrame := by decide +kernel

theorem flagsOf_tagOf (bnc tst : Bool) : flagsOf (tagOf bnc tst) = some (bnc, tst) := by
  cases bnc <;> cases tst <;> rfl

/-- Packing the two flags of a register gives it back where its hardwired bits are 0 (R24). -/
theorem packFlags_of_hardwired_zero : ∀ v : Byte, v &&& 0xFC = 0 → packFlags (bncOf v) (tstOf v) = v := by decide

/-! ## DECODE (R183) -/

theorem exec_decode_of_unknown_tag {s : State} {f : FrameBytes} (hf : textFrame s = some f) (hc : ChecksumOk f)
    (ht : flagsOf f[0] = none) : exec .decode s = .next (s.raise .errTag) := by
  have hsum : payloadChecksum f = storedChecksum f := hc
  simp [exec, execDecode, decodeText, hf, hsum, ht]

/-- What DECODE commits when every check passes. -/
theorem exec_decode_of_frame {s : State} {f : FrameBytes} {bnc tst : Bool} (hf : textFrame s = some f)
    (hc : ChecksumOk f) (ht : flagsOf f[0] = some (bnc, tst)) :
    ∃ t, exec .decode s = .next t ∧ t.B = f ∧ t.CRC = payloadChecksum f ∧ t.FLAGS = packFlags bnc tst ∧ t.T = s.T ∧
      t.TLEN = s.TLEN ∧ t.STATUS = 0x00 ∧ Responds s t 0x0000 := by
  have hsum : payloadChecksum f = storedChecksum f := hc
  refine ⟨(((s.setFrame f).setCRC (payloadChecksum f)).setFLAGS bnc tst).complete .ok, ?_, rfl, rfl, rfl, rfl, rfl, rfl,
    rfl, rfl, rfl⟩
  simp [exec, execDecode, decodeText, hf, hsum, ht]

/-! ## The frame ENCODE builds (R181) -/

theorem builtFrame_get_zero (s : State) : (builtFrame s)[0] = tagOf (bncOf s.FLAGS) (tstOf s.FLAGS) := by
  simp [builtFrame, withChecksum_get_lt]

/-- The workchain byte and the hash stay as they are. -/
theorem builtFrame_get_middle (s : State) {k : Fin 36} (h1 : 1 ≤ k.val) (h34 : k.val < 34) :
    (builtFrame s)[k] = s.B[k] := by
  have h0 : 0 ≠ k.val := by omega
  simp [builtFrame, withChecksum_get_lt _ _ h34, h0]

theorem checksumOk_builtFrame (s : State) : ChecksumOk (builtFrame s) := by
  show payloadChecksum _ = storedChecksum _
  rw [builtFrame, payloadChecksum_withChecksum, storedChecksum_withChecksum]

theorem payload_builtFrame (s : State) :
    payload (builtFrame s) = tagOf (bncOf s.FLAGS) (tstOf s.FLAGS) :: (s.B.toList.drop 1).take 33 := by
  rw [builtFrame, payload_withChecksum]
  apply List.ext_getElem
  · simp [payload]
  · intro i hi _
    have hlt : i < 34 := by simpa [payload_length] using hi
    cases i with
    | zero => simp [payload]
    | succ k => simp [payload]

/-- The frame comes from the flags, the workchain byte and the hash; nothing else is read. -/
theorem builtFrame_eq_of_checksumOk {s : State} {f : FrameBytes} (hc : ChecksumOk f)
    (htag : f[0] = tagOf (bncOf s.FLAGS) (tstOf s.FLAGS))
    (hcells : ∀ k : Fin 36, 1 ≤ k.val → k.val < 34 → s.B[k] = f[k]) : builtFrame s = f := by
  refine frame_eq_of_payload_eq (checksumOk_builtFrame s) hc (payload_congr fun k hk => ?_)
  rcases Nat.eq_zero_or_pos k.val with h0 | hpos
  · obtain rfl : k = 0 := Fin.ext h0
    exact (builtFrame_get_zero s).trans htag.symm
  · exact (builtFrame_get_middle s hpos hk).trans (hcells k hpos hk)

/-! ## ENCODE (R181) -/

/-- A second ENCODE changes nothing. -/
theorem encodeFrame_encodeFrame_sameBlock (s : State) :
    SameBlock (encodeFrame s) (encodeFrame (encodeFrame s)) := by
  obtain ⟨hB, hCRC, hT, hTLEN, hFLAGS, hSTATUS, -⟩ := encodeFrame_fields s
  obtain ⟨hB', hCRC', hT', hTLEN', hFLAGS', hSTATUS', -⟩ := encodeFrame_fields (encodeFrame s)
  have hbuilt : builtFrame (encodeFrame s) = builtFrame s :=
    builtFrame_eq_of_checksumOk (checksumOk_builtFrame s) (hFLAGS ▸ builtFrame_get_zero s) fun k _ _ => by rw [hB]
  rw [hbuilt] at hB' hCRC' hT'
  exact ⟨hB'.trans hB.symm, hT'.trans hT.symm, hTLEN'.trans hTLEN.symm, hFLAGS', hCRC'.trans hCRC.symm,
    hSTATUS'.trans hSTATUS.symm⟩

/-- A DECODE after ENCODE commits what ENCODE wrote. -/
theorem exec_decode_encodeFrame (s : State) :
    ∃ v, exec .decode (encodeFrame s) = .next v ∧ Responds (encodeFrame s) v 0x0000 ∧
      (s.FLAGS &&& 0xFC = 0 → SameBlock (encodeFrame s) v) := by
  obtain ⟨hB, hCRC, hT, hTLEN, hFLAGS, hSTATUS, -⟩ := encodeFrame_fields s
  have hframe : textFrame (encodeFrame s) = some (builtFrame s) := by
    rw [textFrame_of_TLEN_eq hTLEN, hT, b64Dec_b64Enc]
  have htag : flagsOf (builtFrame s)[0] = some (bncOf s.FLAGS, tstOf s.FLAGS) := by
    rw [builtFrame_get_zero, flagsOf_tagOf]
  obtain ⟨v, hexec, hB', hCRC', hFLAGS', hT', hTLEN', hSTATUS', hport⟩ :=
    exec_decode_of_frame hframe (checksumOk_builtFrame s) htag
  refine ⟨v, hexec, hport, fun hzero => ⟨hB'.trans hB.symm, hT', hTLEN', ?_, hCRC'.trans hCRC.symm,
    hSTATUS'.trans hSTATUS.symm⟩⟩
  rw [hFLAGS', packFlags_of_hardwired_zero _ hzero, hFLAGS]

/-! ## The obligations -/

/-- Settles O41: each check that fails raises its own code, and when none does the frame of the text is committed; that
frame encodes to the text again because no second text decodes to it. -/
theorem decodeChecksAndCommits : Obligations.DecodeChecksAndCommits := by
  unfold Obligations.DecodeChecksAndCommits
  intro s
  have htext {x : TextCells} {f : FrameBytes} (hlen : s.TLEN = 48) (hx : s.T = x) (hf : b64Dec x = some f) :
      textFrame s = some f := by rw [textFrame_of_TLEN_eq hlen, hx, hf]
  refine ⟨rfl, fun hlen => ?_, fun hlen hnone => ?_, fun f hlen hf hbad => ?_, fun f hlen hf hok htag => ?_,
    fun f bnc tst hlen hf hok htag => ?_, fun hlen hcells => ?_, fun hlen hexample => ?_,
    fun w hop hne => illegalAt_formatN (by decide) hop hne s⟩
  · exact ⟨_, exec_decode_of_no_frame (textFrame_of_TLEN_ne hlen), raise_raised s .errFormat⟩
  · exact ⟨_, exec_decode_of_no_frame ((textFrame_of_TLEN_eq hlen).trans hnone), raise_raised s .errFormat⟩
  · exact ⟨_, exec_decode_of_bad_checksum (htext hlen rfl hf) hbad, raise_raised s .errChecksum⟩
  · exact ⟨_, exec_decode_of_unknown_tag (htext hlen rfl hf) hok htag, raise_raised s .errTag⟩
  · obtain ⟨t, hexec, hB, hCRC, hFLAGS, hT, hTLEN, hSTATUS, hport⟩ :=
      exec_decode_of_frame (htext hlen rfl hf) hok htag
    exact ⟨t, hexec, hB, hCRC, hFLAGS, hT, hTLEN, hSTATUS, hport, hB ▸ b64Enc_of_b64Dec hf⟩
  · have hzeros : s.T = b64Enc (Vector.replicate 36 0x00) := by
      rw [b64Enc_zeros]
      exact Vector.ext fun j hj => (hcells ⟨j, hj⟩).trans (Vector.getElem_replicate hj).symm
    exact ⟨_, exec_decode_of_unknown_tag (htext hlen hzeros (b64Dec_b64Enc _)) checksumOk_zeros (by decide),
      raise_raised s .errTag⟩
  · have htag : flagsOf exampleFrame[0] = some (false, false) := by decide
    obtain ⟨t, hexec, hB, hCRC, hFLAGS, -, -, -, hport⟩ :=
      exec_decode_of_frame (htext hlen hexample b64Dec_exampleText) checksumOk_exampleFrame htag
    exact ⟨t, hexec, hB, hCRC.trans payloadChecksum_exampleFrame, hFLAGS, hport⟩

/-- Settles O40: the built frame has a right checksum, so it is determined by its payload, which is the tag and the 33
cells ENCODE keeps; a second ENCODE builds it again and a DECODE finds it in the text. -/
theorem encodeBuildsFrameAndText : Obligations.EncodeBuildsFrameAndText := by
  unfold Obligations.EncodeBuildsFrameAndText
  refine fun s => ⟨rfl, ?_, fun w hop hne => illegalAt_formatN (by decide) hop hne s⟩
  obtain ⟨hB, hCRC, hT, hTLEN, hFLAGS, hSTATUS, hport⟩ := encodeFrame_fields s
  obtain ⟨v, hdecode, hportDecode, hsameDecode⟩ := exec_decode_encodeFrame s
  have hok : ChecksumOk (builtFrame s) := checksumOk_builtFrame s
  have h34 : (encodeFrame s).B[34] = hiByte (encodeFrame s).CRC := by
    simp only [hB, hCRC, ChecksumOk.get_34 hok]
  have h35 : (encodeFrame s).B[35] = loByte (encodeFrame s).CRC := by
    simp only [hB, hCRC, ChecksumOk.get_35 hok]
  refine ⟨encodeFrame s, encodeFrame (encodeFrame s), v, rfl, fun p f hp hf => ?_, ?_, fun k hlo hhi => ?_, ?_, h34, h35,
    fun j => by rw [hT, hB], hTLEN, hFLAGS, hSTATUS, hport, rfl, encodeFrame_encodeFrame_sameBlock s, hdecode,
    hportDecode, hsameDecode, fun hflags hcells => ?_⟩
  · obtain rfl : p = payload (builtFrame s) := hp.trans (payload_builtFrame s).symm
    obtain rfl : builtFrame s = f :=
      Vector.toList_inj.mp ((ChecksumOk.toList_eq hok).trans hf.symm)
    exact ⟨hB, hCRC, fun j => by rw [hT]⟩
  · simp only [hB]
    exact builtFrame_get_zero s
  · simpa only [hB] using builtFrame_get_middle s hlo hhi
  · rw [hCRC, hB]
    rfl
  · have hbuilt : builtFrame s = exampleFrame :=
      builtFrame_eq_of_checksumOk checksumOk_exampleFrame (by rw [hflags]; decide) hcells
    rw [hB, hCRC, hT, hbuilt]
    exact ⟨rfl, payloadChecksum_exampleFrame, b64Enc_exampleFrame⟩

end Sys2Proof.Machine

namespace Sys2Proof.Machine

/-! ## What a word can do (spec/60_exceptions.md R214) -/

/-- The three ends of a word, legal or not: it answers a value, completes with `OK`, or raises an error on the state it
was presented to. -/
theorem execWord_cases (w : CommandWord) (s : State) :
    (∃ d, execWord w s = .next (s.answer d)) ∨
    (∃ u : State, execWord w s = .next (u.complete .ok) ∧ u.responses = s.responses ∧ u.inputs = s.inputs ∧
      u.resets = s.resets) ∨
    (∃ e, execWord w s = .next (s.raise e)) := by
  cases hd : decodeWord w with
  | illegal r => exact .inr (.inr ⟨.errIllegal, execWord_illegal ((isIllegal_iff w).mpr ⟨r, hd⟩) s⟩)
  | legal i =>
    rw [execWord_legal hd]
    rcases exec_cases i s with ⟨d, -, hanswer, -⟩ | ⟨-, u, hok, hres, hin, hcnt, -⟩ | ⟨e, hraise, -⟩
    · exact .inl ⟨d, hanswer⟩
    · exact .inr (.inl ⟨u, hok, hres, hin, hcnt⟩)
    · exact .inr (.inr ⟨e, hraise⟩)

/-! ## The obligation -/

/-- Settles O17: a word that answers or completes responds `OK`, so an error status leaves only the word that raised it
on the state before. -/
theorem errorsChangeOnlyStatus : Obligations.ErrorsChangeOnlyStatus := by
  unfold Obligations.ErrorsChangeOnlyStatus
  intro w s
  rcases execWord_cases w s with ⟨d, hanswer⟩ | ⟨u, hok, hres, hin, hcnt⟩ | ⟨e, hraise⟩
  · have hstatus : responseStatus (responseWord .ok d) = 0x00 := responseStatus_responseWord .ok d
    exact ⟨_, _, hanswer, ⟨rfl, rfl, rfl⟩, fun herr => absurd hstatus herr⟩
  · have hstatus : responseStatus (responseWord .ok 0x00) = 0x00 := responseStatus_responseWord .ok 0x00
    exact ⟨_, _, hok, ⟨by rw [State.complete_responses, hres], hin, hcnt⟩, fun herr => absurd hstatus herr⟩
  · obtain ⟨hsame, hSTATUS, hport⟩ := raise_raised s e
    exact ⟨_, _, hraise, hport, fun _ =>
      ⟨hsame, hSTATUS.trans (responseStatus_append e.code 0x00).symm, responseData_append e.code 0x00⟩⟩

end Sys2Proof.Machine

namespace Sys2Proof.Machine

/-! ## The encoder and the decoder undo each other (R70 to R72, R76) -/

/-- A table word of the command word's own length is the command word (R78, log entry 13). -/
theorem tableWord_toNat (w : CommandWord) : tableWord 24 w.toNat = w := by
  simp [tableWord, Nat.mod_eq_of_lt w.isLt]

theorem decodeTableWord_toNat {w : CommandWord} {i : Instr} (h : decodeWord w = .legal i) :
    decodeTableWord 24 w.toNat = some i := by
  simp [decodeTableWord, tableWord_toNat, h]

/-! A legal word of each format is the encoding of the command it decodes to: the used fields are the operands, the
reserved ones are zero, and the row's arm fixes the opcode. -/

theorem encode_of_decodeN {w : CommandWord} {i j : Instr} {op : Nat} (hop : (opField w).toNat = op)
    (hrow : encode i = mkWord (BitVec.ofNat 8 op) 0 0) (h : decodeN w i = .legal j) : encode j = w := by
  obtain ⟨hidx, hdat, rfl⟩ := decodeN_legal h
  have hfields := mkWord_fields w
  rw [hidx, hdat] at hfields
  rw [hrow, ← hop, BitVec.ofNat_toNat, BitVec.setWidth_eq, hfields]

theorem encode_of_decodeI {w : CommandWord} {limit : Nat} {i : Byte → Instr} {j : Instr} {op : Nat}
    (hop : (opField w).toNat = op) (hrow : ∀ idx, encode (i idx) = mkWord (BitVec.ofNat 8 op) idx 0)
    (h : decodeI w limit i = .legal j) : encode j = w := by
  obtain ⟨hdat, -, rfl⟩ := decodeI_legal h
  rw [hrow, ← hop, BitVec.ofNat_toNat, BitVec.setWidth_eq, ← hdat, mkWord_fields]

theorem encode_of_decodeD {w : CommandWord} {limit : Nat} {i : Byte → Instr} {j : Instr} {op : Nat}
    (hop : (opField w).toNat = op) (hrow : ∀ dat, encode (i dat) = mkWord (BitVec.ofNat 8 op) 0 dat)
    (h : decodeD w limit i = .legal j) : encode j = w := by
  obtain ⟨hidx, -, rfl⟩ := decodeD_legal h
  rw [hrow, ← hop, BitVec.ofNat_toNat, BitVec.setWidth_eq, ← hidx, mkWord_fields]

theorem encode_of_decodeX {w : CommandWord} {limit : Nat} {i : Byte → Byte → Instr} {j : Instr} {op : Nat}
    (hop : (opField w).toNat = op) (hrow : ∀ idx dat, encode (i idx dat) = mkWord (BitVec.ofNat 8 op) idx dat)
    (h : decodeX w limit i = .legal j) : encode j = w := by
  obtain ⟨-, rfl⟩ := decodeX_legal h
  rw [hrow, ← hop, BitVec.ofNat_toNat, BitVec.setWidth_eq, mkWord_fields]

/-- A legal word is the encoding of the command it decodes to. -/
theorem encode_of_decodeWord {w : CommandWord} {i : Instr} (h : decodeWord w = .legal i) : encode i = w := by
  unfold decodeWord at h
  split at h
  case h_1 hop | h_3 hop => exact encode_of_decodeX hop (fun _ _ => rfl) h
  case h_2 hop | h_4 hop | h_12 hop | h_13 hop => exact encode_of_decodeI hop (fun _ => rfl) h
  case h_5 hop | h_7 hop | h_15 hop => exact encode_of_decodeD hop (fun _ => rfl) h
  case h_24 => cases h
  case h_6 hop | h_8 hop | h_9 hop | h_10 hop | h_11 hop | h_14 hop | h_16 hop | h_17 hop | h_18 hop | h_19 hop |
      h_20 hop | h_21 hop | h_22 hop | h_23 hop =>
    exact encode_of_decodeN hop rfl h

/-- A command that is not well formed has an illegal word and the effect of one (log entry 9). -/
theorem exec_of_not_wf {i : Instr} (hw : i.wf = false) (s : State) :
    isIllegal (encode i) = true ∧ exec i s = .next s.illegal := by
  cases i
  case wrb idx dat | rdb idx =>
    have hge : 36 ≤ idx.toNat := Nat.lt_of_not_le (of_decide_eq_false hw)
    refine ⟨(illegalAt_frame_index (by decide) hge s).1, ?_⟩
    simp [exec, execWrb, execRdb, frameIndex_of_ge hge]
  case wrt idx dat | rdt idx =>
    have hge : 48 ≤ idx.toNat := Nat.lt_of_not_le (of_decide_eq_false hw)
    refine ⟨(illegalAt_text_index (by decide) hge s).1, ?_⟩
    simp [exec, execWrt, execRdt, textIndex_of_ge hge]
  case wrflags dat =>
    have hgt : ¬ dat.toNat ≤ 3 := of_decide_eq_false hw
    refine ⟨(illegalAt_flags_operand ((flagsBits_ne_zero_iff dat).mpr (Nat.lt_of_not_le hgt)) s).1, ?_⟩
    simp [exec, execWrflags, flagsOperand_eq, hgt]
  all_goals cases hw

/-- Presenting the word of a command term runs the term, whether or not it is well formed. -/
theorem execWord_encode (i : Instr) (s : State) : execWord (encode i) s = exec i s := by
  cases hw : i.wf with
  | true => exact execWord_legal (decodeWord_encode hw) s
  | false =>
    obtain ⟨hill, hexec⟩ := exec_of_not_wf hw s
    rw [execWord_illegal hill, hexec]

/-! ## The rows of the opcode table (R76) -/

/-- A word meets a row's match under its mask field by field. -/
theorem and_mkWord_eq_iff (w : CommandWord) (p q r a b c : Byte) :
    w &&& mkWord p q r = mkWord a b c ↔ opField w &&& p = a ∧ idxField w &&& q = b ∧ datField w &&& r = c := by
  conv_lhs => rw [← mkWord_fields w, Laws.RowMatch.mkWord_and]
  constructor
  · intro h
    exact ⟨by simpa using congrArg opField h, by simpa using congrArg idxField h, by simpa using congrArg datField h⟩
  · rintro ⟨hop, hidx, hdat⟩
    rw [hop, hidx, hdat]

/-! A word that meets the match of a row is the row's opcode with the word's own operands in the fields the format
uses. -/

theorem mkWord_of_match_x {w : CommandWord} {op : Byte} (h : w &&& 0xFF0000 = mkWord op 0 0) :
    mkWord op (idxField w) (datField w) = w := by
  rw [Laws.RowMatch.mask_x, and_mkWord_eq_iff] at h
  obtain ⟨rfl, -⟩ := h
  exact (congrArg (mkWord · _ _) BitVec.and_allOnes).trans (mkWord_fields w)

theorem mkWord_of_match_i {w : CommandWord} {op : Byte} (h : w &&& 0xFF00FF = mkWord op 0 0) :
    mkWord op (idxField w) 0 = w := by
  rw [Laws.RowMatch.mask_i, and_mkWord_eq_iff] at h
  obtain ⟨hop, -, hdat⟩ := h
  have hop' : opField w = op := BitVec.and_allOnes.symm.trans hop
  have hdat' : datField w = 0 := BitVec.and_allOnes.symm.trans hdat
  rw [← hop', ← hdat', mkWord_fields]

theorem mkWord_of_match_d {w : CommandWord} {op : Byte} (h : w &&& 0xFFFF00 = mkWord op 0 0) :
    mkWord op 0 (datField w) = w := by
  rw [Laws.RowMatch.mask_d, and_mkWord_eq_iff] at h
  obtain ⟨hop, hidx, -⟩ := h
  have hop' : opField w = op := BitVec.and_allOnes.symm.trans hop
  have hidx' : idxField w = 0 := BitVec.and_allOnes.symm.trans hidx
  rw [← hop', ← hidx', mkWord_fields]

theorem mkWord_of_match_n {w : CommandWord} {op : Byte} (h : w &&& 0xFFFFFF = mkWord op 0 0) :
    mkWord op 0 0 = w := h.symm.trans BitVec.and_allOnes

/-- The command of the same row as `i`, with the operands that stand in the word. -/
def withFields (w : CommandWord) : Instr → Instr
  | .wrb _ _ => .wrb (idxField w) (datField w)
  | .rdb _ => .rdb (idxField w)
  | .wrt _ _ => .wrt (idxField w) (datField w)
  | .rdt _ => .rdt (idxField w)
  | .wrlen _ => .wrlen (datField w)
  | .wrflags _ => .wrflags (datField w)
  | .rdtabh _ => .rdtabh (idxField w)
  | .rdtabl _ => .rdtabl (idxField w)
  | .crcbyte _ => .crcbyte (datField w)
  | i => i

theorem mnemonicOf_withFields (w : CommandWord) (i : Instr) : mnemonicOf (withFields w i) = mnemonicOf i := by
  cases i <;> rfl

/-- The row's extra constraint on a word is well-formedness of the command that the word's fields give (R76). -/
theorem wf_withFields (w : CommandWord) (i : Instr) : (withFields w i).wf = rowConstraint w i := by
  cases i <;> rfl

/-- A word that meets a row's match is the encoding of the row's command with the word's fields. -/
theorem encode_withFields {w : CommandWord} {i : Instr} (h : matchesRow w i) : encode (withFields w i) = w := by
  cases i
  case wrb | wrt => exact mkWord_of_match_x h
  case rdb | rdt | rdtabh | rdtabl => exact mkWord_of_match_i h
  case wrlen | wrflags | crcbyte => exact mkWord_of_match_d h
  all_goals exact mkWord_of_match_n h

theorem decodeWord_of_selectsRow {w : CommandWord} {i : Instr} (h : selectsRow w i) :
    decodeWord w = .legal (withFields w i) := by
  obtain ⟨hmatch, hconstraint⟩ := h
  conv_lhs => rw [← encode_withFields hmatch]
  exact decodeWord_encode ((wf_withFields w i).trans hconstraint)

/-- The encoded word lies in its command's row. -/
theorem matchesRow_encode (i : Instr) : matchesRow (encode i) i := by
  cases i
  exacts [Laws.RowMatch.wrb _ _, Laws.RowMatch.rdb _, Laws.RowMatch.wrt _ _, Laws.RowMatch.rdt _,
    Laws.RowMatch.wrlen _, Laws.RowMatch.rdlen, Laws.RowMatch.wrflags _, Laws.RowMatch.rdflags, Laws.RowMatch.rdstatus,
    Laws.RowMatch.rdcrch, Laws.RowMatch.rdcrcl, Laws.RowMatch.rdtabh _, Laws.RowMatch.rdtabl _, Laws.RowMatch.crcinit,
    Laws.RowMatch.crcbyte _, Laws.RowMatch.ckgen, Laws.RowMatch.ckchk, Laws.RowMatch.b64enc, Laws.RowMatch.b64dec,
    Laws.RowMatch.tagpack, Laws.RowMatch.tagunpack, Laws.RowMatch.encode, Laws.RowMatch.decode]

theorem withFields_encode (i : Instr) : withFields (encode i) i = i := by
  cases i <;> simp [withFields, encode]

/-- A legal word selects the row of the command it decodes to. -/
theorem selectsRow_of_decodeWord {w : CommandWord} {i : Instr} (h : decodeWord w = .legal i) : selectsRow w i := by
  obtain rfl := encode_of_decodeWord h
  refine ⟨matchesRow_encode i, ?_⟩
  rw [← wf_withFields, withFields_encode]
  exact decodeWord_legal_wf h

/-! A row is named by its mnemonic: what the operands are does not matter. -/

/-- One command of each row of the opcode table. -/
def tableRows : List Instr :=
  [.wrb 0 0, .rdb 0, .wrt 0 0, .rdt 0, .wrlen 0, .rdlen, .wrflags 0, .rdflags, .rdstatus, .rdcrch, .rdcrcl, .rdtabh 0,
    .rdtabl 0, .crcinit, .crcbyte 0, .ckgen, .ckchk, .b64enc, .b64dec, .tagpack, .tagunpack, .encode, .decode]

/-- Looking a mnemonic up in the table finds the columns of every command that has it. -/
theorem tableRows_find (i : Instr) :
    ∃ r, tableRows.find? (mnemonicOf · == mnemonicOf i) = some r ∧ matchMask r = matchMask i ∧
      ∀ w, rowConstraint w r = rowConstraint w i := by
  cases i <;> exact ⟨_, rfl, rfl, fun _ => rfl⟩

theorem selectsRow_congr {i j : Instr} (h : mnemonicOf i = mnemonicOf j) (w : CommandWord) :
    selectsRow w i ↔ selectsRow w j := by
  obtain ⟨r, hri, hmask, hconstraint⟩ := tableRows_find i
  obtain ⟨q, hqj, hmask', hconstraint'⟩ := tableRows_find j
  obtain rfl : r = q := Option.some.inj (hri.symm.trans (h ▸ hqj))
  simp only [selectsRow, matchesRow, ← hmask, ← hmask', ← hconstraint, ← hconstraint']

/-- The match column is the row's word with zero operands, which are in range. -/
theorem decodeWord_match (i : Instr) : decodeWord (matchMask i).1 = .legal (withFields 0 i) := by
  have hmatch : (matchMask i).1 = encode (withFields 0 i) := by cases i <;> rfl
  have hzero : (withFields 0 i).wf = true := by cases i <;> rfl
  rw [hmatch, decodeWord_encode hzero]

/-- Every mask covers the opcode, so that the word's opcode with zero operands is the row's match. -/
theorem match_of_matchesRow {w : CommandWord} {i : Instr} (h : matchesRow w i) :
    (matchMask i).1 = mkWord (opField w) 0 0 := by
  obtain ⟨op, hop, hmatch⟩ : ∃ op, opField (encode (withFields w i)) = op ∧ (matchMask i).1 = mkWord op 0 0 := by
    cases i <;> exact ⟨_, opField_mkWord _ _ _, rfl⟩
  rw [hmatch, ← hop, encode_withFields h]

/-- A word meets the match of one mnemonic at most: its opcode is that row's. -/
theorem mnemonicOf_eq_of_matchesRow {w : CommandWord} {i j : Instr} (hi : matchesRow w i) (hj : matchesRow w j) :
    mnemonicOf i = mnemonicOf j := by
  have hmatch : (matchMask i).1 = (matchMask j).1 := (match_of_matchesRow hi).trans (match_of_matchesRow hj).symm
  have hzero : withFields 0 i = withFields 0 j := by
    rw [← Decoded.legal.injEq, ← decodeWord_match, ← decodeWord_match, hmatch]
  rw [← mnemonicOf_withFields 0 i, hzero, mnemonicOf_withFields]

/-! ## The obligations -/

/-- Settles O1: each field of the built word is read back as it was, and well-formedness is the limit the row checks. -/
theorem decodeOfEncodeIsTheCommand : Obligations.DecodeOfEncodeIsTheCommand := by
  unfold Obligations.DecodeOfEncodeIsTheCommand
  exact fun i hw => ⟨decodeWord_encode hw, decodeTableWord_toNat (decodeWord_encode hw)⟩

/-- Settles O2: the decoder's limits are the operand constraints, and a legal word is its three fields. -/
theorem legalWordsHaveOneMeaning : Obligations.LegalWordsHaveOneMeaning := by
  unfold Obligations.LegalWordsHaveOneMeaning
  exact fun w i h => ⟨decodeWord_legal_wf h, encode_of_decodeWord h⟩

/-- Settles O4: a row's match fixes the opcode, a word that selects a row is the encoding of the row's command with the
word's fields, and a legal word selects the row of its command. -/
theorem opcodeRowsDoNotOverlap : Obligations.OpcodeRowsDoNotOverlap := by
  unfold Obligations.OpcodeRowsDoNotOverlap
  refine ⟨fun i j w hne ⟨hi, hj⟩ => hne (mnemonicOf_eq_of_matchesRow hi hj), fun w i => ⟨?_, fun h => ?_⟩, fun w => ?_⟩
  · rintro ⟨j, hj, hname⟩
    exact (selectsRow_congr hname w).mp (selectsRow_of_decodeWord hj)
  · exact ⟨_, decodeWord_of_selectsRow h, mnemonicOf_withFields w i⟩
  · cases hd : decodeWord w with
    | legal i => simpa [isIllegal, hd] using ⟨i, selectsRow_of_decodeWord hd⟩
    | illegal r =>
      have hnone (i : Instr) : ¬ selectsRow w i := fun h => by
        rw [decodeWord_of_selectsRow h] at hd
        cases hd
      simpa [isIllegal, hd] using hnone

/-- Settles O7: a well-formed term is what its word decodes to; one that is not has an illegal word and acts as it. -/
theorem encodedCommandActsAsItsWord : Obligations.EncodedCommandActsAsItsWord := by
  unfold Obligations.EncodedCommandActsAsItsWord
  exact execWord_encode

/-- Settles O5: each word is decoded. -/
theorem wordsWrittenOutDecode : Obligations.WordsWrittenOutDecode := by
  unfold Obligations.WordsWrittenOutDecode
  decide

end Sys2Proof.Machine

namespace Sys2Proof.Machine

/-! ## What a step can do (R12, R62, R230) -/

theorem step_idle {s : State} (h : s.inputs = []) : step s = .next s := by
  simp [step, takeInput_nil h, idle]

/-- The three kinds of step: nothing is presented, a word is executed, or a reset resets. -/
theorem step_cases (s : State) :
    (s.inputs = [] ∧ step s = .next s) ∨
    (∃ w rest, s.inputs = .command w :: rest ∧ step s = execWord w { s with inputs := rest }) ∨
    (∃ rest, s.inputs = .reset :: rest ∧ step s = .next (State.afterReset { s with inputs := rest })) := by
  cases h : s.inputs with
  | nil => exact .inl ⟨rfl, step_idle h⟩
  | cons e rest =>
    cases e with
    | command w => exact .inr (.inl ⟨w, rest, rfl, step_command h⟩)
    | reset => exact .inr (.inr ⟨rest, rfl, step_reset h⟩)

/-! ## The invariant (R24, R28, R74, R210) -/

theorem Status.code_le_four (e : Status) : e.code.toNat ≤ 4 := by cases e <;> decide

theorem lawfulResponse_ok (d : Byte) : lawfulResponse (responseWord .ok d) = true := by
  simp [lawfulResponse]

theorem lawfulResponse_zero (e : Status) : lawfulResponse (responseWord e 0x00) = true := by
  simpa [lawfulResponse] using e.code_le_four

/-- One more lawful response keeps all of them lawful. -/
theorem lawful_append {l : List ResponseWord} {p : ResponseWord} (hl : ∀ q ∈ l, lawfulResponse q = true)
    (hp : lawfulResponse p = true) : ∀ q ∈ l ++ [p], lawfulResponse q = true := by
  intro q hq
  rcases List.mem_append.mp hq with hq | hq
  · exact hl q hq
  · rwa [List.mem_singleton.mp hq]

theorem inv_answer {s : State} (h : s.Inv) (d : Byte) : (s.answer d).Inv := by
  obtain ⟨hflags, hstatus, hresponses⟩ := h
  exact ⟨hflags, hstatus, lawful_append hresponses (lawfulResponse_ok d)⟩

/-- A completion needs nothing of the `STATUS` before it, which it overwrites. -/
theorem inv_complete {s : State} (hflags : s.FLAGS &&& 0xFC = 0)
    (hresponses : ∀ q ∈ s.responses, lawfulResponse q = true) (e : Status) : (s.complete e).Inv :=
  ⟨hflags, e.code_le_four, lawful_append hresponses (lawfulResponse_zero e)⟩

theorem inv_raise {s : State} (h : s.Inv) (e : Status) : (s.raise e).Inv := by
  obtain ⟨hflags, -, hresponses⟩ := h
  exact inv_complete hflags hresponses e

theorem inv_afterReset {s : State} (h : ∀ q ∈ s.responses, lawfulResponse q = true) : s.afterReset.Inv := by
  refine ⟨?_, ?_, ?_⟩
  · rw [State.afterReset_FLAGS]; rfl
  · rw [State.afterReset_STATUS]; decide
  · rwa [State.afterReset_responses]

/-- A command answers, completes, or raises an error on the state it began from; each keeps the invariant. -/
theorem exec_keeps_inv {i : Instr} {s t : State} (h : s.Inv) (hexec : exec i s = .next t) : t.Inv := by
  rcases exec_cases i s with ⟨d, -, hnext, -⟩ | ⟨-, u, hnext, hres, -, -, hflags⟩ | ⟨e, hnext, -⟩
  all_goals
    rw [hnext] at hexec
    cases hexec
  · exact inv_answer h d
  · obtain ⟨hzero, -, hresponses⟩ := h
    exact inv_complete (hflags hzero) (hres ▸ hresponses) .ok
  · exact inv_raise h e

theorem execWord_keeps_inv {w : CommandWord} {s t : State} (h : s.Inv) (hexec : execWord w s = .next t) : t.Inv := by
  cases hd : decodeWord w with
  | legal i => exact exec_keeps_inv h (execWord_legal hd s ▸ hexec)
  | illegal r =>
    rw [execWord_illegal ((isIllegal_iff w).mpr ⟨r, hd⟩)] at hexec
    cases hexec
    exact inv_raise h .errIllegal

/-! ## The port's own fields (R35, R62) -/

/-- The same block with another history at the port: other words to come, other responses given, another count of
resets. -/
def State.withPort (s : State) (ins : List PortEvent) (res : List ResponseWord) (n : Nat) : State :=
  { s with inputs := ins, responses := res, resets := n }

/-- Two states that hold the same block differ in the port's fields alone. -/
theorem eq_withPort_of_sameBlock {s t : State} (h : SameBlock s t) :
    t = s.withPort t.inputs t.responses t.resets := by
  obtain ⟨hB, hT, hTLEN, hFLAGS, hCRC, hSTATUS⟩ := h
  cases t
  simp_all [State.withPort]

/-- The outcome goes on, with one response, and the same command on the same block at another port does the same to the
block and gives the same response there. -/
def PortIndependent (i : Instr) (s : State) : Prop :=
  ∃ t p, exec i s = .next t ∧ Responds s t p ∧
    ∀ ins res n, exec i (s.withPort ins res n) = .next (t.withPort ins (res ++ [p]) n)

/-- What DECODE commits, as a state. -/
theorem decodeText_of_frame {s : State} {f : FrameBytes} {bnc tst : Bool} (hf : textFrame s = some f)
    (hc : ChecksumOk f) (ht : flagsOf f[0] = some (bnc, tst)) :
    decodeText s = (((s.setFrame f).setCRC (payloadChecksum f)).setFLAGS bnc tst).complete .ok := by
  have hsum : payloadChecksum f = storedChecksum f := hc
  simp [decodeText, hf, hsum, ht]

theorem encodeFrame_withPort (s : State) (ins : List PortEvent) (res : List ResponseWord) (n : Nat) :
    encodeFrame (s.withPort ins res n) = (encodeFrame s).withPort ins (res ++ [0x0000]) n := by
  have hbuilt : builtFrame (s.withPort ins res n) = builtFrame s := rfl
  simp only [encodeFrame, hbuilt]
  rfl

/-- No command looks at the port: what decides its branch, where it has one, is the operand or the block. -/
theorem exec_portIndependent (i : Instr) (s : State) : PortIndependent i s := by
  unfold PortIndependent
  cases i
  case wrb idx _ | rdb idx =>
    simp only [exec, execWrb, execRdb]
    cases frameIndex idx <;> exact ⟨_, _, rfl, ⟨rfl, rfl, rfl⟩, fun _ _ _ => rfl⟩
  case wrt idx _ | rdt idx =>
    simp only [exec, execWrt, execRdt]
    cases textIndex idx <;> exact ⟨_, _, rfl, ⟨rfl, rfl, rfl⟩, fun _ _ _ => rfl⟩
  case wrflags dat =>
    simp only [exec, execWrflags]
    cases flagsOperand dat <;> exact ⟨_, _, rfl, ⟨rfl, rfl, rfl⟩, fun _ _ _ => rfl⟩
  case ckchk =>
    by_cases h : ChecksumOk s.B
    · exact ⟨_, _, congrArg Host.Outcome.next (ckchk_of_checksumOk h), ⟨rfl, rfl, rfl⟩,
        fun ins res n => congrArg Host.Outcome.next (ckchk_of_checksumOk (s := s.withPort ins res n) h)⟩
    · exact ⟨_, _, congrArg Host.Outcome.next (ckchk_of_not_checksumOk h), ⟨rfl, rfl, rfl⟩,
        fun ins res n => congrArg Host.Outcome.next (ckchk_of_not_checksumOk (s := s.withPort ins res n) h)⟩
  case b64dec =>
    cases h : textFrame s with
    | none => exact ⟨_, _, exec_b64dec_of_no_frame h, ⟨rfl, rfl, rfl⟩,
        fun ins res n => exec_b64dec_of_no_frame (s := s.withPort ins res n) h⟩
    | some f => exact ⟨_, _, exec_b64dec_of_frame h, ⟨rfl, rfl, rfl⟩,
        fun ins res n => exec_b64dec_of_frame (s := s.withPort ins res n) h⟩
  case tagunpack =>
    cases h : flagsOf s.B[0] with
    | none => exact ⟨_, _, exec_tagunpack_of_unknown_tag h, ⟨rfl, rfl, rfl⟩,
        fun ins res n => exec_tagunpack_of_unknown_tag (s := s.withPort ins res n) h⟩
    | some _ => exact ⟨_, _, exec_tagunpack_of_flags h, ⟨rfl, rfl, rfl⟩,
        fun ins res n => exec_tagunpack_of_flags (s := s.withPort ins res n) h⟩
  case decode =>
    rcases decodeText_cases s with ⟨hf, -⟩ | ⟨f, hf, hc, -⟩ | ⟨f, hf, hc, ht, -⟩ | ⟨f, bnc, tst, hf, hc, ht, -⟩
    · exact ⟨_, _, exec_decode_of_no_frame hf, ⟨rfl, rfl, rfl⟩,
        fun ins res n => exec_decode_of_no_frame (s := s.withPort ins res n) hf⟩
    · exact ⟨_, _, exec_decode_of_bad_checksum hf hc, ⟨rfl, rfl, rfl⟩,
        fun ins res n => exec_decode_of_bad_checksum (s := s.withPort ins res n) hf hc⟩
    · exact ⟨_, _, exec_decode_of_unknown_tag hf hc ht, ⟨rfl, rfl, rfl⟩,
        fun ins res n => exec_decode_of_unknown_tag (s := s.withPort ins res n) hf hc ht⟩
    · exact ⟨_, _, congrArg Host.Outcome.next (decodeText_of_frame hf hc ht), ⟨rfl, rfl, rfl⟩,
        fun ins res n => congrArg Host.Outcome.next (decodeText_of_frame (s := s.withPort ins res n) hf hc ht)⟩
  case encode =>
    obtain ⟨-, -, -, -, -, -, hport⟩ := encodeFrame_fields s
    exact ⟨_, _, rfl, hport, fun ins res n => congrArg Host.Outcome.next (encodeFrame_withPort s ins res n)⟩
  case tagpack =>
    obtain ⟨-, -, -, -, -, -, hport⟩ := tagpack_fields s
    exact ⟨_, _, rfl, hport, fun _ _ _ => rfl⟩
  case ckgen =>
    obtain ⟨-, -, -, -, -, -, hport⟩ := ckgen_fields s
    exact ⟨_, _, rfl, hport, fun _ _ _ => rfl⟩
  case b64enc =>
    obtain ⟨-, -, -, -, -, -, hport⟩ := b64encode_fields s
    exact ⟨_, _, rfl, hport, fun _ _ _ => rfl⟩
  all_goals exact ⟨_, _, rfl, ⟨rfl, rfl, rfl⟩, fun _ _ _ => rfl⟩

/-- The same command on the same block does the same to it and gives the same response, whatever the ports hold. -/
theorem exec_of_sameBlock (i : Instr) {s s' : State} (h : SameBlock s s') :
    ∃ t t' p, exec i s = .next t ∧ exec i s' = .next t' ∧ SameBlock t t' ∧ Responds s t p ∧ Responds s' t' p := by
  obtain ⟨t, p, hexec, hport, hall⟩ := exec_portIndependent i s
  refine ⟨t, t.withPort s'.inputs (s'.responses ++ [p]) s'.resets, p, hexec, ?_, ⟨rfl, rfl, rfl, rfl, rfl, rfl⟩, hport,
    rfl, rfl, rfl⟩
  rw [eq_withPort_of_sameBlock h]
  exact hall _ _ _

/-- So does the same word. -/
theorem execWord_of_sameBlock (w : CommandWord) {s s' : State} (h : SameBlock s s') :
    ∃ t t' p, execWord w s = .next t ∧ execWord w s' = .next t' ∧ SameBlock t t' ∧ Responds s t p ∧
      Responds s' t' p := by
  cases hd : decodeWord w with
  | legal i => simpa only [execWord_legal hd] using exec_of_sameBlock i h
  | illegal r =>
    have hill : isIllegal w = true := (isIllegal_iff w).mpr ⟨r, hd⟩
    obtain ⟨hB, hT, hTLEN, hFLAGS, hCRC, -⟩ := h
    exact ⟨_, _, 0x0400, execWord_illegal hill s, execWord_illegal hill s', ⟨hB, hT, hTLEN, hFLAGS, hCRC, rfl⟩,
      illegal_responds s, illegal_responds s'⟩

/-! ## Running a command twice (spec/20_memory.md R59) -/

/-- A command that is no `RD*` and changed nothing but `STATUS` leaves the same block when it is run again: `STATUS` is
not among what it looks at. -/
theorem exec_twice_of_sameButStatus {i : Instr} {s t : State} (hr : isRead i = false) (hexec : exec i s = .next t)
    (h : SameButStatus s t) : ∃ u, exec i t = .next u ∧ SameBlock t u := by
  obtain ⟨hB, hT, hTLEN, hFLAGS, hCRC⟩ := h
  have hsame : SameBlock { s with STATUS := t.STATUS } t := ⟨hB, hT, hTLEN, hFLAGS, hCRC, rfl⟩
  obtain ⟨t', u, -, hexec', hu, hblock, -⟩ := exec_of_sameBlock i hsame
  rw [exec_with_STATUS_of_not_read hr, hexec] at hexec'
  cases hexec'
  exact ⟨u, hu, hblock⟩

/-- What an error leaves is left again: the command that raised it raises it once more. -/
theorem exec_twice_of_raise {i : Instr} {s : State} {e : Status} (hr : isRead i = false)
    (hexec : exec i s = .next (s.raise e)) : ∃ t u, exec i s = .next t ∧ exec i t = .next u ∧ SameBlock t u := by
  obtain ⟨u, hu, hsame⟩ := exec_twice_of_sameButStatus hr hexec ⟨rfl, rfl, rfl, rfl, rfl⟩
  exact ⟨_, u, hexec, hu, hsame⟩

theorem flagsBits_zero_of_wf {dat : Byte} (hw : (Instr.wrflags dat).wf = true) : dat.extractLsb' 2 6 = 0#6 := by
  by_contra hne
  exact Nat.not_le.mpr ((flagsBits_ne_zero_iff dat).mp hne) (of_decide_eq_true hw)

/-- Every command but CRCBYTE leaves the second time what it left the first time: a read and an error change nothing it
looks at, and a write stores again what it stored. -/
theorem exec_twice {i : Instr} (hi : ∀ dat, i ≠ .crcbyte dat) (s : State) :
    ∃ t u, exec i s = .next t ∧ exec i t = .next u ∧ SameBlock t u := by
  cases hw : i.wf with
  | false => exact ⟨_, _, (exec_of_not_wf hw s).2, (exec_of_not_wf hw s.illegal).2, rfl, rfl, rfl, rfl, rfl, rfl⟩
  | true =>
    cases i
    case wrb idx dat =>
      have hlt : idx.toNat < 36 := Nat.lt_succ_of_le (of_decide_eq_true hw)
      refine ⟨_, _, exec_wrb hlt dat s, exec_wrb hlt dat _, ?_, rfl, rfl, rfl, rfl, rfl⟩
      simp
    case wrt idx dat =>
      have hlt : idx.toNat < 48 := Nat.lt_succ_of_le (of_decide_eq_true hw)
      refine ⟨_, _, exec_wrt hlt dat s, exec_wrt hlt dat _, rfl, ?_, rfl, rfl, rfl, rfl⟩
      simp
    case wrflags dat =>
      have hbits := flagsBits_zero_of_wf hw
      exact ⟨_, _, exec_wrflags hbits s, exec_wrflags hbits _, rfl, rfl, rfl, rfl, rfl, rfl⟩
    case wrlen | crcinit => exact ⟨_, _, rfl, rfl, rfl, rfl, rfl, rfl, rfl, rfl⟩
    case crcbyte dat => exact absurd rfl (hi dat)
    case ckgen => exact ⟨_, _, rfl, rfl, ckgen_ckgen_sameBlock s⟩
    case b64enc => exact ⟨_, _, rfl, rfl, b64encode_b64encode_sameBlock s⟩
    case tagpack => exact ⟨_, _, rfl, rfl, tagpack_tagpack_sameBlock s⟩
    case encode => exact ⟨_, _, rfl, rfl, encodeFrame_encodeFrame_sameBlock s⟩
    case ckchk =>
      by_cases hc : ChecksumOk s.B
      · exact ⟨_, _, congrArg Host.Outcome.next (ckchk_of_checksumOk hc),
          congrArg Host.Outcome.next (ckchk_of_checksumOk hc), rfl, rfl, rfl, rfl, rfl, rfl⟩
      · exact exec_twice_of_raise rfl (congrArg Host.Outcome.next (ckchk_of_not_checksumOk hc))
    case b64dec =>
      cases hf : textFrame s with
      | none => exact exec_twice_of_raise rfl (exec_b64dec_of_no_frame hf)
      | some f => exact ⟨_, _, exec_b64dec_of_frame hf,
          exec_b64dec_of_frame (s := (s.setFrame f).complete .ok) hf, rfl, rfl, rfl, rfl, rfl, rfl⟩
    case tagunpack =>
      cases ht : flagsOf s.B[0] with
      | none => exact exec_twice_of_raise rfl (exec_tagunpack_of_unknown_tag ht)
      | some p => exact ⟨_, _, exec_tagunpack_of_flags ht,
          exec_tagunpack_of_flags (s := (s.setFLAGS p.1 p.2).complete .ok) ht, rfl, rfl, rfl, rfl, rfl, rfl⟩
    case decode =>
      rcases decodeText_cases s with ⟨-, h⟩ | ⟨_, -, -, h⟩ | ⟨_, -, -, -, h⟩ | ⟨f, bnc, tst, hf, hc, ht, h⟩
      case inr.inr.inr =>
        have hagain := decodeText_of_frame
          (s := (((s.setFrame f).setCRC (payloadChecksum f)).setFLAGS bnc tst).complete .ok) hf hc ht
        exact ⟨_, _, congrArg Host.Outcome.next h, congrArg Host.Outcome.next hagain, rfl, rfl, rfl, rfl, rfl, rfl⟩
      all_goals exact exec_twice_of_raise rfl (congrArg Host.Outcome.next h)
    case rdb | rdt | rdlen | rdflags | rdstatus | rdcrch | rdcrcl | rdtabh | rdtabl =>
      obtain ⟨t, hexec, hsame, -⟩ := exec_read_responds rfl hw rfl
      obtain ⟨t', u, -, hexec', hu, hblock, -⟩ := exec_of_sameBlock _ hsame
      obtain rfl : t = t' := Host.Outcome.next.inj (hexec.symm.trans hexec')
      exact ⟨t, u, hexec, hu, hblock⟩

/-! ## Which commands write what (R20) -/

/-- From `s` to `t` the command `i` has changed only what the "written by" column of R20 lets it change. -/
def WritesAsNamed (i : Instr) (s t : State) : Prop :=
  (t.B ≠ s.B → (∃ idx dat, i = .wrb idx dat) ∨ i = .ckgen ∨ i = .b64dec ∨ i = .tagpack ∨ i = .encode ∨
    i = .decode) ∧
  (t.T ≠ s.T → (∃ idx dat, i = .wrt idx dat) ∨ i = .b64enc ∨ i = .encode) ∧
  (t.TLEN ≠ s.TLEN → (∃ dat, i = .wrlen dat) ∨ i = .b64enc ∨ i = .encode) ∧
  (t.FLAGS ≠ s.FLAGS → (∃ dat, i = .wrflags dat) ∨ i = .tagunpack ∨ i = .decode) ∧
  (t.CRC ≠ s.CRC → i = .crcinit ∨ (∃ dat, i = .crcbyte dat) ∨ i = .ckgen ∨ i = .ckchk ∨ i = .encode ∨
    i = .decode) ∧
  (t.STATUS ≠ s.STATUS → isRead i = false)

theorem writesAsNamed_of_sameBlock {i : Instr} {s t : State} (h : SameBlock s t) : WritesAsNamed i s t := by
  obtain ⟨hB, hT, hTLEN, hFLAGS, hCRC, hSTATUS⟩ := h
  exact ⟨absurd hB, absurd hT, absurd hTLEN, absurd hFLAGS, absurd hCRC, absurd hSTATUS⟩

theorem writesAsNamed_of_sameButStatus {i : Instr} {s t : State} (hr : isRead i = false) (h : SameButStatus s t) :
    WritesAsNamed i s t := by
  obtain ⟨hB, hT, hTLEN, hFLAGS, hCRC⟩ := h
  exact ⟨absurd hB, absurd hT, absurd hTLEN, absurd hFLAGS, absurd hCRC, fun _ => hr⟩

/-- A command that is no `RD*`: what each writes when it completes, and nothing but `STATUS` when it raises. -/
theorem exec_writesAsNamed_of_not_read {i : Instr} {s t : State} (hr : isRead i = false) (hexec : exec i s = .next t) :
    WritesAsNamed i s t := by
  have hraise {e : Status} (h : exec i s = .next (s.raise e)) : WritesAsNamed i s t := by
    obtain rfl := Host.Outcome.next.inj (h.symm.trans hexec)
    exact writesAsNamed_of_sameButStatus hr ⟨rfl, rfl, rfl, rfl, rfl⟩
  have hcommit {u : State} (h : exec i s = .next u) (hu : WritesAsNamed i s u) : WritesAsNamed i s t :=
    Host.Outcome.next.inj (h.symm.trans hexec) ▸ hu
  cases i
  case wrb idx dat =>
    rcases execWrb_cases idx dat s with ⟨_, -, h⟩ | ⟨-, h⟩
    · exact hcommit h (by simp [WritesAsNamed, isRead])
    · exact hraise h
  case wrt idx dat =>
    rcases execWrt_cases idx dat s with ⟨_, -, h⟩ | ⟨-, h⟩
    · exact hcommit h (by simp [WritesAsNamed, isRead])
    · exact hraise h
  case wrflags dat =>
    rcases execWrflags_cases dat s with ⟨_, _, -, h⟩ | ⟨-, h⟩
    · exact hcommit h (by simp [WritesAsNamed, isRead])
    · exact hraise h
  case ckchk =>
    rcases ckchk_cases s with ⟨-, h⟩ | ⟨-, h⟩
    · exact hcommit (congrArg Host.Outcome.next h) (by simp [WritesAsNamed, isRead])
    · exact hraise (congrArg Host.Outcome.next h)
  case b64dec =>
    rcases b64decode_cases s with ⟨_, -, h⟩ | ⟨-, h⟩
    · exact hcommit (congrArg Host.Outcome.next h) (by simp [WritesAsNamed, isRead])
    · exact hraise (congrArg Host.Outcome.next h)
  case tagunpack =>
    rcases tagunpack_cases s with ⟨_, _, -, h⟩ | ⟨-, h⟩
    · exact hcommit (congrArg Host.Outcome.next h) (by simp [WritesAsNamed, isRead])
    · exact hraise (congrArg Host.Outcome.next h)
  case decode =>
    rcases decodeText_cases s with ⟨-, h⟩ | ⟨_, -, -, h⟩ | ⟨_, -, -, -, h⟩ | ⟨_, _, _, -, -, -, h⟩
    case inr.inr.inr => exact hcommit (congrArg Host.Outcome.next h) (by simp [WritesAsNamed, isRead])
    all_goals exact hraise (congrArg Host.Outcome.next h)
  case ckgen =>
    obtain ⟨-, -, hT, hTLEN, hFLAGS, -⟩ := ckgen_fields s
    exact hcommit rfl (by simp [WritesAsNamed, isRead, hT, hTLEN, hFLAGS])
  case b64enc =>
    obtain ⟨-, -, hB, hCRC, hFLAGS, -⟩ := b64encode_fields s
    exact hcommit rfl (by simp [WritesAsNamed, isRead, hB, hCRC, hFLAGS])
  case tagpack =>
    obtain ⟨-, hT, hTLEN, hFLAGS, hCRC, -⟩ := tagpack_fields s
    exact hcommit rfl (by simp [WritesAsNamed, isRead, hT, hTLEN, hFLAGS, hCRC])
  case encode =>
    obtain ⟨-, -, -, -, hFLAGS, -⟩ := encodeFrame_fields s
    exact hcommit rfl (by simp [WritesAsNamed, isRead, hFLAGS])
  case wrlen | crcinit | crcbyte => exact hcommit rfl (by simp [WritesAsNamed, isRead])
  all_goals cases hr

/-! ## The obligations -/

/-- Settles O12: a word answers, completes, or raises on the state it began from, a reset event starts the registers
afresh, and with nothing presented nothing changes; the responses so far stay and at most one lawful one joins them. -/
theorem everyStepKeepsTheInvariant : Obligations.EveryStepKeepsTheInvariant := by
  unfold Obligations.EveryStepKeepsTheInvariant
  intro s t hinv hstep
  rcases step_cases s with ⟨-, h⟩ | ⟨w, rest, -, h⟩ | ⟨rest, -, h⟩
  · obtain rfl := Host.Outcome.next.inj (h.symm.trans hstep)
    exact hinv
  · exact execWord_keeps_inv (s := { s with inputs := rest }) hinv (h.symm.trans hstep)
  · obtain rfl := Host.Outcome.next.inj (h.symm.trans hstep)
    obtain ⟨-, -, hresponses⟩ := hinv
    exact inv_afterReset hresponses

/-- Settles O16: two states that hold the same block differ in the port's fields, which no command looks at. -/
theorem resultDependsOnTheTupleOnly : Obligations.ResultDependsOnTheTupleOnly := by
  unfold Obligations.ResultDependsOnTheTupleOnly
  exact fun w s s' h => execWord_of_sameBlock w h

/-- Settles O13: every kind of step goes on, and so does every word. -/
theorem everyStepGoesOn : Obligations.EveryStepGoesOn := by
  unfold Obligations.EveryStepGoesOn
  refine ⟨fun s => ?_, execWord_next⟩
  rcases step_cases s with ⟨-, h⟩ | ⟨w, rest, -, h⟩ | ⟨rest, -, h⟩
  · exact ⟨_, h⟩
  · obtain ⟨t, ht⟩ := execWord_next w { s with inputs := rest }
    exact ⟨t, h.trans ht⟩
  · exact ⟨_, h⟩

/-- Settles O18: a read leaves the block as it was; every other command writes what its rule names, or `STATUS`
alone. -/
theorem onlyTheNamedCommandsWrite : Obligations.OnlyTheNamedCommandsWrite := by
  unfold Obligations.OnlyTheNamedCommandsWrite
  intro i s t hw hexec
  by_cases hr : isRead i = true
  · obtain rfl := Host.Outcome.next.inj ((exec_read hr hw s).symm.trans hexec)
    exact writesAsNamed_of_sameBlock ⟨rfl, rfl, rfl, rfl, rfl, rfl⟩
  · exact exec_writesAsNamed_of_not_read (Bool.eq_false_of_not_eq_true hr) hexec

/-- Settles O56: reads and errors leave what the command looks at, writes store the same again; CRCBYTE of 0x01 moves a
cleared register on both times. -/
theorem repeatedCommandsAreIdempotent : Obligations.RepeatedCommandsAreIdempotent := by
  unfold Obligations.RepeatedCommandsAreIdempotent
  refine ⟨fun i s hw hr => ?_, fun i s hi => exec_twice hi s, ?_⟩
  · obtain ⟨t, hexec, hsame, -⟩ := exec_read_responds (s := s) hr hw rfl
    exact ⟨t, hexec, hsame⟩
  · have hmoved : crcByte (crcByte 0x0000 0x01) 0x01 ≠ crcByte 0x0000 0x01 := by decide +kernel
    refine ⟨State.reset, _, _, 0x01, rfl, rfl, fun hsame => ?_⟩
    obtain ⟨-, -, -, -, hCRC, -⟩ := hsame
    simp only [State.complete_CRC, State.setCRC_CRC, State.reset_CRC] at hCRC
    exact hmoved hCRC

/-- Settles O6: the head of the stream is taken and executed on the rest. -/
theorem stepRunsTheDecodedCommand : Obligations.StepRunsTheDecodedCommand := by
  unfold Obligations.StepRunsTheDecodedCommand
  refine ⟨fun s w rest i hin hd => ⟨decodeWord_legal_wf hd, ?_⟩, fun s i hw => ?_⟩
  · rw [step_command hin, execWord_legal hd]
  · rw [State.withFetchWord, tableWord_toNat, step_present, execWord_encode]

/-- Settles O8: with nothing presented a step is idle. -/
theorem idleBlockKeepsItsState : Obligations.IdleBlockKeepsItsState := by
  unfold Obligations.IdleBlockKeepsItsState
  exact ⟨fun s h => step_idle h, step_idle rfl⟩

/-- Settles O10: the contents after a reset are the free values of that reset, cell by cell. -/
theorem resetCellsAreFreeValues : Obligations.ResetCellsAreFreeValues := by
  unfold Obligations.ResetCellsAreFreeValues
  refine ⟨resetFrame_get 0, resetText_get 0, fun s rest hin => ⟨_, step_reset hin, fun k => ?_, fun j => ?_, ?_⟩⟩
  · exact (congrArg (·[k]) (State.afterReset_B _)).trans (resetFrame_get _ k)
  · exact (congrArg (·[j]) (State.afterReset_T _)).trans (resetText_get _ j)
  · exact ⟨State.afterReset_resets _, State.afterReset_responses _, State.afterReset_inputs _⟩

/-- Settles O11: the registers are zero and no response has been given. -/
theorem resetMeetsTheInvariant : Obligations.ResetMeetsTheInvariant := by
  unfold Obligations.ResetMeetsTheInvariant
  exact ⟨rfl, Nat.zero_le 4, by simp⟩

end Sys2Proof.Machine

namespace Sys2Proof.Machine

/-! ## The composite commands and their parts (spec/44_composite.md R182, R184, R185) -/

theorem execWhileOk_cons {i : Instr} {s t : State} (h : exec i s = .next t) (hok : t.STATUS = 0x00)
    (is : List Instr) : execWhileOk (i :: is) s = execWhileOk is t := by
  simp [execWhileOk, h, hok]

theorem Status.code_ne_zero {e : Status} (h : e ≠ .ok) : e.code ≠ 0x00 := by
  revert h
  cases e <;> decide

/-- An error ends the sequence (R184). -/
theorem execWhileOk_raise {i : Instr} {s u : State} {e : Status} (h : exec i s = .next (u.raise e)) (he : e ≠ .ok)
    (is : List Instr) : execWhileOk (i :: is) s = .next (u.raise e) := by
  simp only [execWhileOk, h, State.raise_STATUS]
  exact if_neg (Status.code_ne_zero he)

/-- The block that TAGPACK; CKGEN; B64ENC leave is that of ENCODE: the frame with its tag packed and its checksum
generated is the built frame. -/
theorem encodeFrame_sameBlock_parts (s : State) : SameBlock (encodeFrame s) (b64encode (ckgen (tagpack s))) := by
  obtain ⟨hB, hT, hTLEN, hFLAGS, hCRC, -, -⟩ := tagpack_fields s
  obtain ⟨hB', hCRC', hT', hTLEN', hFLAGS', -, -⟩ := ckgen_fields (tagpack s)
  obtain ⟨hT'', hTLEN'', hB'', hCRC'', hFLAGS'', hSTATUS'', -⟩ := b64encode_fields (ckgen (tagpack s))
  obtain ⟨eB, eCRC, eT, eTLEN, eFLAGS, eSTATUS, -⟩ := encodeFrame_fields s
  have hframe : (ckgen (tagpack s)).B = builtFrame s := by rw [hB', hB, builtFrame]
  refine ⟨?_, ?_, hTLEN''.trans eTLEN.symm, ?_, ?_, hSTATUS''.trans eSTATUS.symm⟩
  · rw [hB'', hframe, eB]
  · rw [hT'', hframe, eT]
  · rw [hFLAGS'', hFLAGS', hFLAGS, eFLAGS]
  · rw [hCRC'', hCRC', hB, eCRC, builtFrame, payloadChecksum_withChecksum]

/-- The text a frame was read from is the one `T` holds, with 48 in the length register. -/
theorem textFrame_eq_some_iff {s : State} {f : FrameBytes} :
    textFrame s = some f ↔ s.TLEN = 48 ∧ b64Dec s.T = some f := by
  rw [textFrame_eq]
  split <;> simp_all

/-- A DECODE that responds `OK` has found a well-formed frame. -/
theorem frame_of_decode_ok {s t : State} (h : exec .decode s = .next t) (hok : t.STATUS = 0x00) :
    ∃ f bnc tst, textFrame s = some f ∧ ChecksumOk f ∧ flagsOf f[0] = some (bnc, tst) ∧
      t = (((s.setFrame f).setCRC (payloadChecksum f)).setFLAGS bnc tst).complete .ok := by
  obtain rfl : decodeText s = t := Host.Outcome.next.inj h
  rcases decodeText_cases s with ⟨-, ht⟩ | ⟨f, -, -, ht⟩ | ⟨f, -, -, -, ht⟩ | ⟨f, bnc, tst, hf, hc, htag, ht⟩
  case inr.inr.inr => exact ⟨f, bnc, tst, hf, hc, htag, ht⟩
  all_goals
    rw [ht] at hok
    cases hok

/-- The flags of a tag byte give the tag back (R163, R164). -/
theorem tagOf_of_flagsOf {t : Byte} {bnc tst : Bool} (h : flagsOf t = some (bnc, tst)) : tagOf bnc tst = t := by
  have hall : ∀ t : Byte, ∀ p ∈ flagsOf t, tagOf p.1 p.2 = t := by decide
  exact hall t (bnc, tst) h

theorem flagsOf_isSome_iff (t : Byte) : (flagsOf t).isSome = true ↔ t ∈ [0x11#8, 0x51, 0x91, 0xD1] := by
  revert t
  decide

/-- The text buffer holds a well-formed frame (R172). -/
def HoldsWellFormedFrame (s : State) : Prop :=
  ∃ f, textFrame s = some f ∧ ChecksumOk f ∧ (flagsOf f[0]).isSome = true

/-- The response of DECODE says whether the text buffer holds a well-formed frame. -/
theorem exec_decode_responds (s : State) :
    ∃ t p, exec .decode s = .next t ∧ Responds s t p ∧ (p = 0x0000 ↔ HoldsWellFormedFrame s) := by
  unfold HoldsWellFormedFrame
  rcases decodeText_cases s with ⟨hf, h⟩ | ⟨f, hf, hc, h⟩ | ⟨f, hf, hc, ht, h⟩ | ⟨f, bnc, tst, hf, hc, ht, h⟩
  · exact ⟨_, 0x0100, congrArg Host.Outcome.next h, ⟨rfl, rfl, rfl⟩, iff_of_false (by decide) (by simp [hf])⟩
  · have hbad : ¬ ChecksumOk f := hc
    exact ⟨_, 0x0200, congrArg Host.Outcome.next h, ⟨rfl, rfl, rfl⟩, iff_of_false (by decide) (by simp [hf, hbad])⟩
  · exact ⟨_, 0x0300, congrArg Host.Outcome.next h, ⟨rfl, rfl, rfl⟩, iff_of_false (by decide) (by simp [hf, ht])⟩
  · exact ⟨_, 0x0000, congrArg Host.Outcome.next h, ⟨rfl, rfl, rfl⟩, iff_of_true rfl ⟨f, hf, hc, by simp [ht]⟩⟩

/-- An ENCODE after a successful DECODE builds the decoded frame again. -/
theorem builtFrame_of_decoded {s : State} {f : FrameBytes} {bnc tst : Bool} (hB : s.B = f) (hc : ChecksumOk f)
    (htag : flagsOf f[0] = some (bnc, tst)) (hFLAGS : s.FLAGS = packFlags bnc tst) : builtFrame s = f := by
  refine builtFrame_eq_of_checksumOk hc ?_ fun k _ _ => by rw [hB]
  rw [hFLAGS, bncOf_packFlags, tstOf_packFlags, tagOf_of_flagsOf htag]

theorem b64Enc_get_isSome (f : FrameBytes) (j : Fin 48) : (b64Val (b64Enc f)[j]).isSome = true := by
  rw [b64Enc_get, b64Val_b64Char]
  rfl

theorem flagsOf_builtFrame (s : State) : flagsOf (builtFrame s)[0] = some (bncOf s.FLAGS, tstOf s.FLAGS) := by
  rw [builtFrame_get_zero, flagsOf_tagOf]

theorem exec_ckchk_of_checksumOk {s : State} (h : ChecksumOk s.B) :
    exec .ckchk s = .next ((s.setCRC (payloadChecksum s.B)).complete .ok) :=
  congrArg Host.Outcome.next (ckchk_of_checksumOk h)

theorem exec_ckchk_of_not_checksumOk {s : State} (h : ¬ ChecksumOk s.B) :
    exec .ckchk s = .next (s.raise .errChecksum) :=
  congrArg Host.Outcome.next (ckchk_of_not_checksumOk h)

/-! ### B64DEC; CKCHK; TAGUNPACK, each run only if the one before responded `OK` (R184) -/

/-- The block after B64DEC has stored the frame of the text. -/
def afterB64dec (s : State) (f : FrameBytes) : State := (s.setFrame f).complete .ok

/-- The block after CKCHK has found that frame's checksum right. -/
def afterCkchk (s : State) (f : FrameBytes) : State := ((afterB64dec s f).setCRC (payloadChecksum f)).complete .ok

theorem decodeParts_of_no_frame {s : State} (hf : textFrame s = none) :
    execWhileOk [.b64dec, .ckchk, .tagunpack] s = .next (s.raise .errFormat) :=
  execWhileOk_raise (exec_b64dec_of_no_frame hf) (by decide) _

theorem decodeParts_of_bad_checksum {s : State} {f : FrameBytes} (hf : textFrame s = some f) (hc : ¬ ChecksumOk f) :
    execWhileOk [.b64dec, .ckchk, .tagunpack] s = .next ((afterB64dec s f).raise .errChecksum) := by
  rw [execWhileOk_cons (exec_b64dec_of_frame hf) rfl]
  exact execWhileOk_raise (exec_ckchk_of_not_checksumOk (s := afterB64dec s f) hc) (by decide) _

theorem decodeParts_of_checksumOk {s : State} {f : FrameBytes} (hf : textFrame s = some f) (hc : ChecksumOk f) :
    execWhileOk [.b64dec, .ckchk, .tagunpack] s = execWhileOk [.tagunpack] (afterCkchk s f) := by
  rw [execWhileOk_cons (exec_b64dec_of_frame hf) rfl]
  exact execWhileOk_cons (exec_ckchk_of_checksumOk (s := afterB64dec s f) hc) rfl _

theorem decodeParts_of_unknown_tag {s : State} {f : FrameBytes} (hf : textFrame s = some f) (hc : ChecksumOk f)
    (ht : flagsOf f[0] = none) :
    execWhileOk [.b64dec, .ckchk, .tagunpack] s = .next ((afterCkchk s f).raise .errTag) := by
  rw [decodeParts_of_checksumOk hf hc]
  exact execWhileOk_raise (exec_tagunpack_of_unknown_tag (s := afterCkchk s f) ht) (by decide) _

theorem decodeParts_of_frame {s : State} {f : FrameBytes} {bnc tst : Bool} (hf : textFrame s = some f)
    (hc : ChecksumOk f) (ht : flagsOf f[0] = some (bnc, tst)) :
    execWhileOk [.b64dec, .ckchk, .tagunpack] s = .next (((afterCkchk s f).setFLAGS bnc tst).complete .ok) := by
  rw [decodeParts_of_checksumOk hf hc]
  exact execWhileOk_cons (exec_tagunpack_of_flags (s := afterCkchk s f) ht) rfl _

/-! ## The obligations -/

/-- Settles O42: each of the three completes with its one response, and the block they leave is that of ENCODE. -/
theorem encodeIsTheThreeCommands : Obligations.EncodeIsTheThreeCommands := by
  unfold Obligations.EncodeIsTheThreeCommands
  intro s
  obtain ⟨-, -, -, -, -, -, htagpack, -⟩ := tagpack_fields s
  obtain ⟨-, -, -, -, -, -, hckgen, -⟩ := ckgen_fields (tagpack s)
  obtain ⟨-, -, -, -, -, -, hb64enc, -⟩ := b64encode_fields (ckgen (tagpack s))
  obtain ⟨-, -, -, -, -, -, hencode, -⟩ := encodeFrame_fields s
  refine ⟨encodeFrame s, b64encode (ckgen (tagpack s)), rfl, rfl, encodeFrame_sameBlock_parts s, hencode, ?_⟩
  rw [hb64enc, hckgen, htagpack]
  simp

/-- Settles O43: the sequence makes the checks of DECODE in the same order and stops at the first that fails, by when
it has stored what the checks before it committed. -/
theorem decodeAgainstTheThreeCommands : Obligations.DecodeAgainstTheThreeCommands := by
  unfold Obligations.DecodeAgainstTheThreeCommands
  intro s
  rcases decodeText_cases s with ⟨hf, h⟩ | ⟨f, hf, hc, h⟩ | ⟨f, hf, hc, ht, h⟩ | ⟨f, bnc, tst, hf, hc, ht, h⟩
  · exact ⟨_, _, congrArg Host.Outcome.next h, decodeParts_of_no_frame hf, by simp [SameBlock, SameButStatus]⟩
  · obtain ⟨-, hdec⟩ := textFrame_eq_some_iff.mp hf
    exact ⟨_, _, congrArg Host.Outcome.next h, decodeParts_of_bad_checksum hf hc,
      by simp [SameButStatus, afterB64dec, hdec]⟩
  · obtain ⟨-, hdec⟩ := textFrame_eq_some_iff.mp hf
    exact ⟨_, _, congrArg Host.Outcome.next h, decodeParts_of_unknown_tag hf hc ht,
      by simp [SameButStatus, afterCkchk, afterB64dec, hdec, payloadChecksum, payload]⟩
  · exact ⟨_, _, congrArg Host.Outcome.next h, decodeParts_of_frame hf hc ht,
      by simp [SameBlock, afterCkchk, afterB64dec]⟩

/-- Settles O44: ENCODE writes the text of the built frame, which DECODE reads back; a decoded frame is the one ENCODE
builds from what DECODE committed, and no other text decodes to it. -/
theorem encodeThenDecodeRoundTrip : Obligations.EncodeThenDecodeRoundTrip := by
  unfold Obligations.EncodeThenDecodeRoundTrip
  refine ⟨fun s ⟨hzero, _⟩ => ?_, fun s t hexec hok => ?_, fun s => ?_⟩
  · obtain ⟨hB, -, -, -, hFLAGS, hSTATUS, -⟩ := encodeFrame_fields s
    obtain ⟨u, hdecode, hport, hsame⟩ := exec_decode_encodeFrame s
    obtain ⟨uB, -, -, uFLAGS, -, uSTATUS⟩ := hsame hzero
    refine ⟨encodeFrame s, u, rfl, hdecode, hport, hsame hzero, uSTATUS.trans hSTATUS, uFLAGS.trans hFLAGS,
      fun k hlo hhi => ?_⟩
    rw [uB, hB]
    exact builtFrame_get_middle s hlo hhi
  · obtain ⟨f, bnc, tst, hf, hc, htag, rfl⟩ := frame_of_decode_ok hexec hok
    obtain ⟨hlen, hdec⟩ := textFrame_eq_some_iff.mp hf
    obtain ⟨-, -, hT, hTLEN, -⟩ := encodeFrame_fields
      ((((s.setFrame f).setCRC (payloadChecksum f)).setFLAGS bnc tst).complete .ok)
    refine ⟨_, rfl, ?_, hTLEN.trans hlen.symm⟩
    rw [hT, builtFrame_of_decoded (f := f) rfl hc htag rfl, b64Enc_of_b64Dec hdec]
  · obtain ⟨-, -, hT, hTLEN, -⟩ := encodeFrame_fields s
    exact ⟨encodeFrame s, rfl, hTLEN, fun j => hT ▸ b64Enc_get_isSome (builtFrame s) j⟩

/-- Settles O45: of the four ends of DECODE only the commit responds `OK`, and it has passed the three checks; ENCODE's
frame is built to pass them. -/
theorem decodeAcceptsExactlyWellFormedFrames : Obligations.DecodeAcceptsExactlyWellFormedFrames := by
  unfold Obligations.DecodeAcceptsExactlyWellFormedFrames
  refine ⟨fun s => ?_, fun s => ?_⟩
  · obtain ⟨t, p, hexec, hport, hiff⟩ := exec_decode_responds s
    refine ⟨t, p, hexec, hport, hiff.trans ?_⟩
    simp only [HoldsWellFormedFrame, textFrame_eq_some_iff, flagsOf_isSome_iff, and_assoc, exists_and_left]
  · obtain ⟨hB, -⟩ := encodeFrame_fields s
    have hc : ChecksumOk (builtFrame s) := checksumOk_builtFrame s
    have htag : (flagsOf (builtFrame s)[0]).isSome = true := by rw [flagsOf_builtFrame]; rfl
    refine ⟨encodeFrame s, rfl, hB ▸ hc, ?_, ?_⟩
    · simp only [hB]
      exact (flagsOf_isSome_iff _).mp htag
    · rw [hB, wellFormedFrame, htag, Bool.and_true]
      exact beq_iff_eq.mpr hc

/-- Settles O53: group by group, 24 bits are the same cut into bytes or into sextets, and the alphabet is a
bijection. -/
theorem textLayerRoundTrips : Obligations.TextLayerRoundTrips := by
  unfold Obligations.TextLayerRoundTrips
  exact ⟨b64Dec_b64Enc, fun x f h => b64Enc_of_b64Dec h, b64Enc_get_isSome⟩

/-- Settles O52: the two directions of the correspondence, and the codes without a value counted. -/
theorem alphabetIsABijection : Obligations.AlphabetIsABijection := by
  unfold Obligations.AlphabetIsABijection
  refine ⟨b64Val_b64Char, fun c s h => b64Char_of_b64Val c s h, by decide +kernel, by decide +kernel, by decide +kernel⟩

/-- Settles O54: the four flag pairs and the four tags that are recognised, and the other 252 values counted. -/
theorem tagByteLaws : Obligations.TagByteLaws := by
  unfold Obligations.TagByteLaws
  have hbits : ∀ bnc tst : Bool, tst = (tagOf bnc tst).getLsbD 7 ∧ bnc = !(tagOf bnc tst).getLsbD 6 := by decide
  refine ⟨fun bnc tst => ⟨flagsOf_tagOf bnc tst, ?_⟩, fun t bnc tst h => ?_, by decide +kernel⟩
  · cases bnc <;> cases tst <;> decide
  · obtain rfl := tagOf_of_flagsOf h
    exact ⟨rfl, hbits bnc tst⟩

end Sys2Proof.Machine

namespace Sys2Proof.Machine

/-! ## The generator is linear (spec/41_crc.md R126, R129) -/

theorem crcBit_xor (r q : Crc16) (b c : Bool) : crcBit (r ^^^ q) (b ^^ c) = crcBit r b ^^^ crcBit q c := by
  have hfeed (x y : Bool) :
      (if x ^^ y then crcPoly else 0) = (if x then crcPoly else 0) ^^^ (if y then crcPoly else 0) := by
    cases x <;> cases y <;> decide
  have htop : ((r ^^^ q).getLsbD 15 ^^ (b ^^ c)) = ((r.getLsbD 15 ^^ b) ^^ (q.getLsbD 15 ^^ c)) := by
    simp only [BitVec.getLsbD_xor, Bool.xor_assoc, Bool.xor_left_comm]
  rw [crcBit_eq, crcBit_eq, crcBit_eq, htop, hfeed, BitVec.shiftLeft_xor_distrib]
  ac_rfl

theorem crcByte_xor (r q : Crc16) (v u : Byte) : crcByte (r ^^^ q) (v ^^^ u) = crcByte r v ^^^ crcByte q u := by
  simp only [crcByte, BitVec.getLsbD_xor, crcBit_xor]

theorem crcFold_xor (r q : Crc16) {a b : List Byte} (h : a.length = b.length) :
    crcFold (r ^^^ q) (List.zipWith (· ^^^ ·) a b) = crcFold r a ^^^ crcFold q b := by
  induction a generalizing b r q with
  | nil => cases b with
    | nil => rfl
    | cons _ _ => cases h
  | cons v a ih => cases b with
    | nil => cases h
    | cons u b => simp only [List.zipWith_cons_cons, crcFold_cons, crcByte_xor, ih _ _ (Nat.succ.inj h)]

/-- The table-driven step is the bit-serial one: the high half of the register is used up by a byte equal to it, and
what is left of the message byte goes through a cleared register (R126). -/
theorem crcByteTab_eq_crcByte (r : Crc16) (v : Byte) : crcByteTab r v = crcByte r v := by
  calc crcByteTab r v
    _ = crcByte r (hiByte r) ^^^ crcByte 0x0000 (hiByte r ^^^ v) := by rw [crcByteTab, tab_eq, crcByte_hiByte]
    _ = crcByte (r ^^^ 0x0000) (hiByte r ^^^ (hiByte r ^^^ v)) := (crcByte_xor _ _ _ _).symm
    _ = crcByte r v := by
      rw [← BitVec.xor_assoc, BitVec.xor_self, BitVec.zero_xor]
      exact congrArg (crcByte · v) BitVec.xor_zero

/-! ## The register after a message given bit by bit

The theorems on error patterns (R133) speak of single bits, so the message is here a function from bit numbers, counted
from its last bit, to bits. -/

/-- The register after bits `n - 1` down to 0 of `e`, started from `r`. -/
def crcBits (e : ℕ → Bool) : ℕ → Crc16 → Crc16
  | 0, r => r
  | n + 1, r => crcBits e n (crcBit r (e n))

@[simp] theorem crcBits_zero (e : ℕ → Bool) (r : Crc16) : crcBits e 0 r = r := rfl

theorem crcBits_succ (e : ℕ → Bool) (n : ℕ) (r : Crc16) : crcBits e (n + 1) r = crcBits e n (crcBit r (e n)) := rfl

/-- Only the bits below the length are looked at. -/
theorem crcBits_congr {e e' : ℕ → Bool} {n : ℕ} (h : ∀ k < n, e k = e' k) (r : Crc16) :
    crcBits e n r = crcBits e' n r := by
  induction n generalizing r with
  | zero => rfl
  | succ n ih => rw [crcBits_succ, crcBits_succ, h n (Nat.lt_succ_self n), ih fun k hk => h k (Nat.lt_succ_of_lt hk)]

/-- The bits from `n` up come first. -/
theorem crcBits_add (e : ℕ → Bool) (n m : ℕ) (r : Crc16) :
    crcBits e (n + m) r = crcBits e n (crcBits (fun k => e (n + k)) m r) := by
  induction m generalizing r with
  | zero => rfl
  | succ m ih => rw [← Nat.add_assoc, crcBits_succ, ih, crcBits_succ]

theorem crcBits_xor (e d : ℕ → Bool) (n : ℕ) (r q : Crc16) :
    crcBits (fun k => e k ^^ d k) n (r ^^^ q) = crcBits e n r ^^^ crcBits d n q := by
  induction n generalizing r q with
  | zero => rfl
  | succ n ih => rw [crcBits_succ, crcBits_succ, crcBits_succ, crcBit_xor, ih]

theorem crcBits_xor_zero (e d : ℕ → Bool) (n : ℕ) :
    crcBits (fun k => e k ^^ d k) n 0x0000 = crcBits e n 0x0000 ^^^ crcBits d n 0x0000 :=
  crcBits_xor e d n 0x0000 0x0000

theorem crcBits_injective (e : ℕ → Bool) (n : ℕ) : Function.Injective (crcBits e n) := by
  induction n with
  | zero => exact fun _ _ h => h
  | succ n ih => exact ih.comp (crcBit_injective (e n))

/-- Zero bits leave a cleared register cleared. -/
theorem crcBits_zeros {e : ℕ → Bool} {n : ℕ} (h : ∀ k < n, e k = false) : crcBits e n 0x0000 = 0x0000 := by
  induction n with
  | zero => rfl
  | succ n ih =>
    rw [crcBits_succ, h n (Nat.lt_succ_self n)]
    exact ih fun k hk => h k (Nat.lt_succ_of_lt hk)

/-- Leading zero bits do not matter. -/
theorem crcBits_leading_zeros {e : ℕ → Bool} {m n : ℕ} (hmn : m ≤ n) (h : ∀ k, m ≤ k → k < n → e k = false) :
    crcBits e n 0x0000 = crcBits e m 0x0000 := by
  obtain ⟨d, rfl⟩ := Nat.exists_eq_add_of_le hmn
  rw [crcBits_add, crcBits_zeros fun k hk => h (m + k) (Nat.le_add_right m k) (Nat.add_lt_add_left hk m)]

/-- Bits equal to those the register shifts out feed nothing back. -/
theorem crcBits_of_register_bits (e : ℕ → Bool) {n : ℕ} (hn : n ≤ 16) (r : Crc16)
    (h : ∀ k < n, e k = r.getLsbD (16 - n + k)) : crcBits e n r = r <<< n := by
  induction n generalizing r with
  | zero => simp
  | succ n ih =>
    have htop : r.getLsbD 15 = e n := by rw [h n (Nat.lt_succ_self n)]; congr 1; omega
    rw [crcBits_succ, crcBit_of_top_eq htop, ih (by omega), ← BitVec.shiftLeft_add, Nat.add_comm]
    intro k hk
    rw [h k (by omega), BitVec.getLsbD_shiftLeft, show 16 - (n + 1) + k = 16 - n + k - 1 by omega]
    simp [show 16 - n + k < 16 by omega, show ¬ 16 - n + k < 1 by omega]

/-- Sixteen bits that are not all zero do not leave a cleared register cleared: they would clear the register they
stand for, and no two registers are cleared by the same bits. -/
theorem crcBits_sixteen_ne_zero {e : ℕ → Bool} {k : ℕ} (hk : k < 16) (he : e k = true) :
    crcBits e 16 0x0000 ≠ 0x0000 := by
  intro hzero
  obtain ⟨q, hbits⟩ : ∃ q : Crc16, ∀ i < 16, e i = q.getLsbD i :=
    ⟨BitVec.ofFnLE fun i : Fin 16 => e i, fun i hi => by simp [hi]⟩
  have hq : crcBits e 16 q = 0x0000 := by
    rw [crcBits_of_register_bits e (Nat.le_refl 16) q (by simpa using hbits)]
    exact BitVec.shiftLeft_eq_zero (Nat.le_refl 16)
  have hcleared : q = 0x0000 := crcBits_injective e 16 (hq.trans hzero.symm)
  rw [hbits k hk, hcleared] at he
  simp at he

/-- A nonzero pattern has a 1. -/
theorem exists_getLsbD_of_ne_zero {n : ℕ} {b : BitVec n} (h : b ≠ 0) : ∃ i < n, b.getLsbD i = true := by
  by_contra hnone
  push Not at hnone
  exact h (BitVec.eq_of_getLsbD_eq fun i hi => by simpa using hnone i hi)

/-! ## Which error patterns the checksum detects (R133) -/

/-- A pattern with a 1, all of whose 1s lie in 16 consecutive bits, leaves a nonzero register. -/
theorem crcBits_burst_ne_zero {e : ℕ → Bool} {n a : ℕ} (h : ∀ k, e k = true → a ≤ k ∧ k < a + 16 ∧ k < n)
    (hne : ∃ k, e k = true) : crcBits e n 0x0000 ≠ 0x0000 := by
  have houtside (k : ℕ) (hk : ¬ (a ≤ k ∧ k < a + 16 ∧ k < n)) : e k = false :=
    Bool.eq_false_of_not_eq_true (mt (h k) hk)
  have hlead : crcBits e n 0x0000 = crcBits e (a + 16) 0x0000 := by
    rw [← crcBits_leading_zeros (Nat.le_max_left n (a + 16)) fun k hk _ => houtside k (by omega),
      crcBits_leading_zeros (Nat.le_max_right n (a + 16)) fun k hk _ => houtside k (by omega)]
  have htail : crcBits e a 0x0000 = 0x0000 := crcBits_zeros fun k hk => houtside k (by omega)
  obtain ⟨k, hk⟩ := hne
  obtain ⟨hlo, hhi, -⟩ := h k hk
  have hone : e (a + (k - a)) = true := by rwa [Nat.add_sub_cancel' hlo]
  have hburst : crcBits (fun i => e (a + i)) 16 0x0000 ≠ 0x0000 := crcBits_sixteen_ne_zero (by omega) hone
  rw [hlead, crcBits_add]
  exact fun hzero => hburst (crcBits_injective e a (hzero.trans htail.symm))

/-- The register after a single 1 and then `k` zeros. -/
def oneThenZeros (k : ℕ) : Crc16 := (crcBit · false)^[k] crcPoly

theorem crcBits_false (k : ℕ) (r : Crc16) : crcBits (fun _ => false) k r = (crcBit · false)^[k] r := by
  induction k generalizing r with
  | zero => rfl
  | succ k ih => rw [crcBits_succ, ih, Function.iterate_succ_apply]

/-- A pattern with one 1, at position `a`. -/
theorem crcBits_single {n a : ℕ} (ha : a < n) : crcBits (fun k => decide (k = a)) n 0x0000 = oneThenZeros a := by
  have hlead (k : ℕ) (hk : a + 1 ≤ k) (_ : k < n) : decide (k = a) = false := decide_eq_false (by omega)
  have htail (k : ℕ) (hk : k < a) : decide (k = a) = false := decide_eq_false (by omega)
  have hone : crcBit 0x0000 true = crcPoly := by decide
  rw [crcBits_leading_zeros ha hlead, crcBits_succ, crcBits_congr htail, crcBits_false, decide_eq_true rfl, hone,
    oneThenZeros]

/-- The 1 does not come round again within a frame. -/
theorem oneThenZeros_ne_poly : ∀ d < 287, oneThenZeros (d + 1) ≠ crcPoly := by decide +kernel

theorem oneThenZeros_ne {a b : ℕ} (hab : a < b) (hb : b < 288) : oneThenZeros a ≠ oneThenZeros b := by
  intro h
  obtain ⟨d, rfl⟩ := Nat.exists_eq_add_of_lt hab
  have hinj := (crcBit_injective false).iterate a
  rw [oneThenZeros, oneThenZeros, Nat.add_assoc, Function.iterate_add_apply] at h
  exact oneThenZeros_ne_poly d (by omega) (hinj h).symm

/-- A pattern with two 1s within a frame leaves a nonzero register. -/
theorem crcBits_pair_ne_zero {a b : ℕ} (ha : a < 288) (hb : b < 288) (hab : a ≠ b) :
    crcBits (fun k => decide (k = a) ^^ decide (k = b)) 288 0x0000 ≠ 0x0000 := by
  have hne : oneThenZeros a ≠ oneThenZeros b := by
    rcases Nat.lt_or_gt_of_ne hab with h | h
    · exact oneThenZeros_ne h hb
    · exact (oneThenZeros_ne h ha).symm
  rw [crcBits_xor_zero, crcBits_single ha, crcBits_single hb]
  exact fun hzero => hne (BitVec.xor_eq_zero_iff.mp hzero)

/-! ## The bits of a frame (R54) -/

/-- Bit `k` of a byte sequence, counted from the last bit of its last byte. -/
def bytesBit (l : List Byte) (k : ℕ) : Bool := (l.reverse.getD (k / 8) 0).getLsbD (k % 8)

theorem bytesBit_cons_lt (v : Byte) {l : List Byte} {k : ℕ} (h : k < 8 * l.length) :
    bytesBit (v :: l) k = bytesBit l k := by
  have hlt : k / 8 < l.reverse.length := by rw [List.length_reverse]; omega
  rw [bytesBit, bytesBit, List.reverse_cons, List.getD_append _ _ _ _ hlt]

theorem bytesBit_cons_length_add (v : Byte) (l : List Byte) {k : ℕ} (h : k < 8) :
    bytesBit (v :: l) (8 * l.length + k) = v.getLsbD k := by
  have hdiv : (8 * l.length + k) / 8 = l.reverse.length := by rw [List.length_reverse]; omega
  rw [bytesBit, hdiv, List.reverse_cons, show (8 * l.length + k) % 8 = k by omega]
  simp

theorem crcByte_eq_crcBits (r : Crc16) (v : Byte) : crcByte r v = crcBits v.getLsbD 8 r := rfl

theorem crcByte_zero : crcByte 0x0000 0x00 = 0x0000 :=
  (crcByte_eq_crcBits _ _).trans (crcBits_zeros fun _ _ => BitVec.getLsbD_zero)

/-- Byte by byte and bit by bit the register is the same. -/
theorem crcFold_eq_crcBits (l : List Byte) (r : Crc16) : crcFold r l = crcBits (bytesBit l) (8 * l.length) r := by
  induction l generalizing r with
  | nil => rfl
  | cons v l ih =>
    rw [crcFold_cons, ih, crcByte_eq_crcBits, List.length_cons, Nat.mul_succ, crcBits_add,
      crcBits_congr (e' := v.getLsbD) fun k hk => bytesBit_cons_length_add v l hk]
    exact crcBits_congr (fun k hk => (bytesBit_cons_lt v hk).symm) _

/-- A bit of a frame as R54 places it: byte 0 first, in a byte bit 7 first. -/
theorem bytesBit_frame (f : FrameBytes) {k : ℕ} (hk : k < 288) :
    bytesBit f.toList k = f[35 - k / 8].getLsbD (k % 8) := by
  have hlt : k / 8 < 36 := by omega
  simp [bytesBit, hlt]

/-- A frame whose bits differ from a frame with a right checksum by a pattern that leaves a nonzero register has a wrong
checksum. -/
theorem not_checksumOk_of_error {f g : FrameBytes} {e : ℕ → Bool} (hf : ChecksumOk f)
    (hg : ∀ k < 288, bytesBit g.toList k = (bytesBit f.toList k ^^ e k)) (he : crcBits e 288 0x0000 ≠ 0x0000) :
    ¬ ChecksumOk g := by
  rw [checksumOk_iff_crc16_eq_zero, crc16_eq, crcFold_eq_crcBits, Vector.length_toList] at hf ⊢
  rw [crcBits_congr hg, crcBits_xor_zero, hf]
  exact fun hzero => he (BitVec.xor_eq_zero_iff.mp hzero).symm

/-- A 1 shifted down from the top of a byte. -/
theorem getLsbD_top_ushiftRight : ∀ s t : Fin 8, (0x80#8 >>> s.val).getLsbD t = decide (s.val + t = 7) := by decide

/-- Flipping bit `k` of R54's numbering flips bit `287 - k` counted from the end. -/
theorem bytesBit_flipBit (f : FrameBytes) (k : Fin 288) {m : ℕ} (hm : m < 288) :
    bytesBit (flipBit f k).toList m = (bytesBit f.toList m ^^ decide (m = 287 - k.val)) := by
  have hpos := getLsbD_top_ushiftRight ⟨k.val % 8, by omega⟩ ⟨m % 8, by omega⟩
  rw [bytesBit_frame _ hm, bytesBit_frame _ hm, flipBit, Vector.getElem_set]
  split
  · next heq =>
    have hpos' : decide (k.val % 8 + m % 8 = 7) = decide (m = 287 - k.val) := decide_eq_decide.mpr (by omega)
    simp only [BitVec.getLsbD_xor, heq, hpos, hpos']
  · next hne =>
    have hmk : decide (m = 287 - k.val) = false := decide_eq_false (by omega)
    rw [hmk, Bool.xor_false]

theorem bytesBit_xorFrame (f : FrameBytes) (p : BitVec 288) {m : ℕ} (hm : m < 288) :
    bytesBit (xorFrame f p).toList m = (bytesBit f.toList m ^^ p.getLsbD m) := by
  have hbyte : 35 - (35 - m / 8) = m / 8 := by omega
  have hbit : 8 * (m / 8) + m % 8 = m := by omega
  rw [bytesBit_frame _ hm, bytesBit_frame _ hm]
  simp [xorFrame, hbyte, hbit, show m % 8 < 8 by omega]

/-- Bit `24 * h + t` of a frame lies in the 24 bits of group `11 - h`. -/
theorem bytesBit_group (f : FrameBytes) {h t : ℕ} (hh : h < 12) (ht : t < 24) :
    bytesBit f.toList (24 * h + t) =
      (mkWord f[3 * (11 - h)] f[3 * (11 - h) + 1] f[3 * (11 - h) + 2]).getLsbD t := by
  rw [bytesBit_frame f (by omega), mkWord, BitVec.getLsbD_append, BitVec.getLsbD_append]
  split
  · have hbyte : 35 - (24 * h + t) / 8 = 3 * (11 - h) + 2 := by omega
    have hbit : (24 * h + t) % 8 = t := by omega
    simp only [hbyte, hbit]
  · split
    · have hbyte : 35 - (24 * h + t) / 8 = 3 * (11 - h) + 1 := by omega
      have hbit : (24 * h + t) % 8 = t - 8 := by omega
      simp only [hbyte, hbit]
    · have hbyte : 35 - (24 * h + t) / 8 = 3 * (11 - h) := by omega
      have hbit : (24 * h + t) % 8 = t - 8 - 8 := by omega
      simp only [hbyte, hbit]

/-- Sextet `k` of a group stands in six bits of its word, sextet 0 at the top. -/
theorem packGroup_getLsbD (a b c : Byte) {k t : ℕ} (hk : k < 4) (ht : t < 6) :
    (packGroup a b c)[k].getLsbD t = (mkWord a b c).getLsbD (6 * (3 - k) + t) := by
  obtain rfl | rfl | rfl | rfl : k = 0 ∨ k = 1 ∨ k = 2 ∨ k = 3 := by omega
  all_goals simp [packGroup, mkWord, ht]

/-- A bit of a frame as R144 places it: sextet 0 first, in a sextet bit 5 first. -/
theorem bytesBit_sextet (f : FrameBytes) {m : ℕ} (hm : m < 288) :
    bytesBit f.toList m = (frameSextet f ⟨47 - m / 6, by omega⟩).getLsbD (m % 6) := by
  obtain ⟨h, t, hh, ht, rfl⟩ : ∃ h t, h < 12 ∧ t < 24 ∧ m = 24 * h + t := ⟨m / 24, m % 24, by omega, by omega, by omega⟩
  have hindex : (⟨47 - (24 * h + t) / 6, by omega⟩ : Fin 48) = ⟨4 * (11 - h) + (3 - t / 6), by omega⟩ :=
    Fin.ext (by dsimp only; omega)
  have hbit : 6 * (3 - (3 - t / 6)) + (24 * h + t) % 6 = t := by omega
  rw [bytesBit_group f hh ht, hindex, frameSextet_group f (by omega) (by omega), packGroup_getLsbD _ _ _ (by omega)
    (by omega), hbit]

/-! ## One changed character (R133 item (e)) -/

/-- The bits in which two frames differ. -/
def bitDifference (f g : FrameBytes) (m : ℕ) : Bool := bytesBit f.toList m ^^ bytesBit g.toList m

theorem lt_of_bitDifference {f g : FrameBytes} {m : ℕ} (h : bitDifference f g m = true) : m < 288 := by
  by_contra hge
  have hbeyond : ¬ m / 8 < 36 := by omega
  simp [bitDifference, bytesBit, hbeyond] at h

/-- Two frames with a right checksum that agree in all sextets but one agree in that one too: six bits are a burst. -/
theorem frameSextet_eq_of_checksumOk {f g : FrameBytes} {j : Fin 48} (hf : ChecksumOk f) (hg : ChecksumOk g)
    (h : ∀ k : Fin 48, k ≠ j → frameSextet f k = frameSextet g k) : frameSextet f j = frameSextet g j := by
  by_contra hne
  have hburst (m : ℕ) (he : bitDifference f g m = true) :
      6 * (47 - j.val) ≤ m ∧ m < 6 * (47 - j.val) + 16 ∧ m < 288 := by
    have hm := lt_of_bitDifference he
    have hk : (⟨47 - m / 6, by omega⟩ : Fin 48) = j := by
      by_contra hk
      simp [bitDifference, bytesBit_sextet _ hm, h _ hk] at he
    have hval := congrArg Fin.val hk
    dsimp only at hval
    omega
  have hsome : ∃ m, bitDifference f g m = true := by
    obtain ⟨i, hi, hbit⟩ := exists_getLsbD_of_ne_zero (mt BitVec.xor_eq_zero_iff.mp hne)
    have hm : 6 * (47 - j.val) + i < 288 := by omega
    have hindex : (⟨47 - (6 * (47 - j.val) + i) / 6, by omega⟩ : Fin 48) = j := Fin.ext (by dsimp only; omega)
    have hpos : (6 * (47 - j.val) + i) % 6 = i := by omega
    refine ⟨6 * (47 - j.val) + i, ?_⟩
    simpa only [bitDifference, bytesBit_sextet _ hm, hindex, hpos, BitVec.getLsbD_xor] using hbit
  exact not_checksumOk_of_error hf (fun m _ => by simp [bitDifference]) (crcBits_burst_ne_zero hburst hsome) hg

/-- The sextets of the frame a text decodes to are those of its cells. -/
theorem b64Char_frameSextet_of_b64Dec {x : TextCells} {f : FrameBytes} (h : b64Dec x = some f) (k : Fin 48) :
    b64Char (frameSextet f k) = x[k] := by
  rw [← b64Enc_get, b64Enc_of_b64Dec h]

/-- A valid text stays valid when a cell takes another code of the alphabet. -/
theorem exists_b64Dec_set {x : TextCells} {f : FrameBytes} (h : b64Dec x = some f) (j : Fin 48) {c : Byte}
    (hc : b64Val c ≠ none) : ∃ g, b64Dec (x.set j c) = some g := by
  rw [← Option.ne_none_iff_exists', ne_eq, b64Dec_eq_none_iff]
  rintro ⟨k, hk⟩
  rcases eq_or_ne j k with rfl | hjk
  · exact hc (by simpa using hk)
  · have hother : (x.set j c)[k] = x[k] := by simp [Fin.val_ne_of_ne hjk]
    have hnone := b64Dec_of_invalid ⟨k, hother ▸ hk⟩
    rw [h] at hnone
    cases hnone

/-- Of two texts that differ in one cell at most one decodes to a frame with a right checksum. -/
theorem not_checksumOk_of_set {x : TextCells} {f g : FrameBytes} {j : Fin 48} {c : Byte} (hf : b64Dec x = some f)
    (hg : b64Dec (x.set j c) = some g) (hok : ChecksumOk f) (hne : c ≠ x[j]) : ¬ ChecksumOk g := by
  intro hok'
  have hchar : Function.Injective b64Char := fun a b hab => by
    simpa only [b64Val_b64Char, Option.some.injEq] using congrArg b64Val hab
  have hothers (k : Fin 48) (hk : k ≠ j) : frameSextet f k = frameSextet g k := by
    apply hchar
    rw [b64Char_frameSextet_of_b64Dec hf, b64Char_frameSextet_of_b64Dec hg]
    simp [Fin.val_ne_of_ne hk.symm]
  have hsame := frameSextet_eq_of_checksumOk hok hok' hothers
  apply hne
  rw [← b64Char_frameSextet_of_b64Dec hf j, hsame, b64Char_frameSextet_of_b64Dec hg j]
  simp

/-! ## CKCHK on a changed frame -/

/-- CKCHK on a frame with a wrong checksum raises `ERR_CHECKSUM`. -/
theorem exec_ckchk_raises {s : State} {g : FrameBytes} (h : ¬ ChecksumOk g) :
    ∃ t, exec .ckchk (s.setFrame g) = .next t ∧ Raised (s.setFrame g) t 0x02 :=
  ⟨_, exec_ckchk_of_not_checksumOk (s := s.setFrame g) h, raise_raised _ .errChecksum⟩

/-! ## The obligations -/

/-- Settles O47: the table-driven step by linearity, and the printed constants are the table. -/
theorem tableAndBitSerialFormsAgree : Obligations.TableAndBitSerialFormsAgree := by
  unfold Obligations.TableAndBitSerialFormsAgree
  refine fun r v => ⟨crcByteTab_eq_crcByte r v, fun impl => ?_, ?_⟩
  · cases impl
    · exact crcByteTab_eq_crcByte r v
    · rfl
  · rw [crctab_eq_tab]
    exact crcByteTab_eq_crcByte r v

/-- Settles O48: entry by entry. -/
theorem tableHasTheConstructedEntries : Obligations.TableHasTheConstructedEntries := by
  unfold Obligations.TableHasTheConstructedEntries
  have hshift : ∀ i : Byte, tabByShift i = tab i := by decide +kernel
  exact ⟨by decide +kernel, fun i => ⟨crctab_eq_tab i, hshift i⟩⟩

/-- Settles O49: the fold is linear and streams, a zero byte leaves a cleared register, and a register's own halves
clear it. -/
theorem checksumLaws : Obligations.ChecksumLaws := by
  unfold Obligations.ChecksumLaws
  refine ⟨fun a b h => crcFold_xor 0x0000 0x0000 h, fun s => ?_, fun s => ?_, fun s t => crcFold_append 0x0000 s t⟩
  · rw [crc16_eq, crcFold_cons, crcByte_zero, crc16_eq]
  · rw [crc16_eq (s ++ _), crcFold_append]
    exact crcFold_halves (crc16 s)

/-- Settles O50: one 1 is a burst, and two 1s cancel only at a distance no frame has. -/
theorem oneAndTwoBitErrorsAreDetected : Obligations.OneAndTwoBitErrorsAreDetected := by
  unfold Obligations.OneAndTwoBitErrorsAreDetected
  refine fun s hok => ⟨fun k => exec_ckchk_raises ?_, fun k l hkl => exec_ckchk_raises ?_⟩
  · refine not_checksumOk_of_error hok (fun m hm => bytesBit_flipBit s.B k hm) ?_
    refine crcBits_burst_ne_zero (a := 287 - k.val) (fun m hmk => ?_) ⟨287 - k.val, decide_eq_true rfl⟩
    have hm := of_decide_eq_true hmk
    omega
  · have hbits (m : ℕ) (hm : m < 288) : bytesBit (flipBit (flipBit s.B k) l).toList m =
        (bytesBit s.B.toList m ^^ (decide (m = 287 - k.val) ^^ decide (m = 287 - l.val))) := by
      rw [bytesBit_flipBit _ l hm, bytesBit_flipBit _ k hm, Bool.xor_assoc]
    refine not_checksumOk_of_error hok hbits (crcBits_pair_ne_zero (by omega) (by omega) ?_)
    have hval := Fin.val_ne_of_ne hkl
    omega

/-- Settles O51: a nonzero pattern of 16 bits shifted into the frame is a burst. -/
theorem shortBurstsAreDetected : Obligations.ShortBurstsAreDetected := by
  unfold Obligations.ShortBurstsAreDetected
  intro s b k hok hb hk
  refine exec_ckchk_raises (not_checksumOk_of_error hok (fun m hm => bytesBit_xorFrame s.B _ hm) ?_)
  refine crcBits_burst_ne_zero (a := k) (fun m hbit => ?_) ?_
  · simp only [BitVec.getLsbD_shiftLeft, BitVec.getLsbD_setWidth, Bool.and_eq_true, Bool.not_eq_true',
      decide_eq_true_eq, decide_eq_false_iff_not] at hbit
    obtain ⟨⟨hm, hge⟩, -, hset⟩ := hbit
    have hlt : m - k < 16 := BitVec.lt_of_getLsbD hset
    omega
  · obtain ⟨i, hi, hset⟩ := exists_getLsbD_of_ne_zero hb
    refine ⟨k + i, ?_⟩
    simp [show k + i < 288 by omega, hset]

/-- Settles O46: a new code outside the alphabet leaves no frame in the text; one inside it leaves another frame, whose
checksum is wrong. -/
theorem oneChangedCharacterIsRejected : Obligations.OneChangedCharacterIsRejected := by
  unfold Obligations.OneChangedCharacterIsRejected
  intro s t j c hexec hok hne
  obtain ⟨f, -, -, hf, hc, -, -⟩ := frame_of_decode_ok hexec hok
  obtain ⟨hlen, hdec⟩ := textFrame_eq_some_iff.mp hf
  have htext : textFrame (s.setT j c) = b64Dec (s.T.set j c) := textFrame_of_TLEN_eq hlen
  by_cases hval : b64Val c = none
  · have hnone : b64Dec (s.T.set j c) = none := b64Dec_of_invalid ⟨j, by simpa using hval⟩
    exact ⟨_, exec_decode_of_no_frame (htext.trans hnone), fun _ => raise_raised _ .errFormat, fun h => absurd hval h⟩
  · obtain ⟨g, hg⟩ := exists_b64Dec_set hdec j hval
    exact ⟨_, exec_decode_of_bad_checksum (htext.trans hg) (not_checksumOk_of_set hdec hg hc hne),
      fun h => absurd h hval, fun _ => raise_raised _ .errChecksum⟩

end Sys2Proof.Machine

namespace Sys2Proof.Machine

/-! ## Presenting commands and reading back (R12, R62, R83) -/

/-- The host's question and its answer, for any command term. -/
theorem ask_encode {i : Instr} {s t : State} {p : ResponseWord} (h : exec i s = .next t)
    (hr : t.responses = s.responses ++ [p]) : ask s (encode i) = (t, p) := by
  unfold ask
  rw [step_present, execWord_encode, h]
  simp [hr]

/-- A command that completes leaves its state to the commands after it. -/
theorem tell_cons_complete {i : Instr} {s u : State} (h : exec i s = .next (u.complete .ok))
    (hr : u.responses = s.responses) (is : List Instr) : tell s (i :: is) = tell (u.complete .ok) is := by
  rw [tell_cons, ask_encode h (congrArg (· ++ [_]) hr)]

/-- Asking a well-formed `RD*` answers the value it reads. -/
theorem ask_read {i : Instr} (hr : isRead i = true) (hw : i.wf = true) (s : State) :
    ask s (encode i) = (s.answer (readValue s i), 0x00#8 ++ readValue s i) :=
  ask_encode (exec_read hr hw s) rfl

theorem readValue_of_sameBlock {s t : State} (h : SameBlock s t) (i : Instr) : readValue t i = readValue s i := by
  rw [eq_withPort_of_sameBlock h]
  cases i <;> rfl

/-- A list of reads answers the value of each. -/
theorem askAll_reads {is : List Instr} (h : ∀ i ∈ is, isRead i = true ∧ i.wf = true) (s : State) :
    (askAll s is).2.map responseData = is.map (readValue s) := by
  induction is generalizing s with
  | nil => rfl
  | cons i is ih =>
    obtain ⟨hr, hw⟩ := h i List.mem_cons_self
    have hsame : SameBlock s (s.answer (readValue s i)) := ⟨rfl, rfl, rfl, rfl, rfl, rfl⟩
    have hvalue : readValue (s.answer (readValue s i)) = readValue s := funext (readValue_of_sameBlock hsame)
    have htail := ih (fun k hk => h k (List.mem_cons_of_mem i hk)) (s.answer (readValue s i))
    simp only [askAll, ask_read hr hw, List.map_cons, htail, responseData_append, hvalue]

/-! ## The checksum procedure (R190) -/

theorem exec_crcinit (s : State) : exec .crcinit s = .next ((s.setCRC 0x0000).complete .ok) := rfl

theorem exec_crcbyte (b : Byte) (s : State) :
    exec (.crcbyte b) s = .next ((s.setCRC (crcByte s.CRC b)).complete .ok) := rfl

theorem exec_wrlen (b : Byte) (s : State) : exec (.wrlen b) s = .next ((s.setTLEN b).complete .ok) := rfl

/-- CRCBYTEs one after another fold their bytes into `CRC` and touch nothing else of a block whose `STATUS` is `OK`. -/
theorem tell_crcbyte (bs : List Byte) {s : State} (hok : s.STATUS = 0x00) :
    SameBlock { s with CRC := crcFold s.CRC bs } (tell s (bs.map .crcbyte)) ∧
      (tell s (bs.map .crcbyte)).inputs = s.inputs := by
  induction bs generalizing s with
  | nil => exact ⟨⟨rfl, rfl, rfl, rfl, rfl, rfl⟩, rfl⟩
  | cons b bs ih =>
    rw [List.map_cons, tell_cons_complete (exec_crcbyte b s) rfl]
    obtain ⟨⟨hB, hT, hTLEN, hFLAGS, hCRC, hSTATUS⟩, hin⟩ := ih (s := (s.setCRC (crcByte s.CRC b)).complete .ok) rfl
    exact ⟨⟨hB, hT, hTLEN, hFLAGS, hCRC, hSTATUS.trans hok.symm⟩, hin⟩

/-- The procedure reads the two halves of what `CRC` holds after the bytes, and the reads leave the block alone. -/
theorem checksumOnBlock_eq (bs : List Byte) (s : State) :
    (checksumOnBlock bs s).2 = (tell s (.crcinit :: bs.map .crcbyte)).CRC ∧
      SameBlock (tell s (.crcinit :: bs.map .crcbyte)) (checksumOnBlock bs s).1 ∧
      (checksumOnBlock bs s).1.inputs = (tell s (.crcinit :: bs.map .crcbyte)).inputs := by
  simp only [checksumOnBlock, ask_read (i := .rdcrch) rfl rfl, ask_read (i := .rdcrcl) rfl rfl, responseData_append,
    readValue_rdcrch, readValue_rdcrcl]
  exact ⟨hiByte_append_loByte _, ⟨rfl, rfl, rfl, rfl, rfl, rfl⟩, rfl⟩

/-! ## Staging bytes and characters (R83 `LDB`, `LDTEXT`, R196) -/

/-- WRBs from cell `i` up store their bytes and leave the cells below, the flags and what the port will present. -/
theorem tell_wrbFrom (bs : List Byte) {i : ℕ} (h : i + bs.length ≤ 36) (s : State) :
    (∀ k (hk : k < bs.length), (tell s (wrbFrom i bs)).B[i + k] = bs[k]) ∧
      (∀ k (hk : k < i), (tell s (wrbFrom i bs)).B[k] = s.B[k]) ∧ (tell s (wrbFrom i bs)).FLAGS = s.FLAGS := by
  induction bs generalizing i s with
  | nil => exact ⟨fun k hk => absurd hk (Nat.not_lt_zero k), fun _ _ => rfl, rfl⟩
  | cons b bs ih =>
    rw [List.length_cons] at h
    have hidx : (BitVec.ofNat 8 i).toNat = i := by rw [BitVec.toNat_ofNat]; omega
    have hlt : (BitVec.ofNat 8 i).toNat < 36 := by omega
    rw [wrbFrom, tell_cons_complete (exec_wrb hlt b s) rfl]
    obtain ⟨hcells, hbelow, hflags⟩ :=
      ih (i := i + 1) (by omega) ((s.setB ⟨(BitVec.ofNat 8 i).toNat, hlt⟩ b).complete .ok)
    refine ⟨fun k hk => ?_, fun k hk => ?_, hflags⟩
    · cases k with
      | zero => exact (hbelow i (Nat.lt_succ_self i)).trans (by simp [hidx])
      | succ k =>
        have hcell := hcells k (Nat.lt_of_succ_lt_succ hk)
        simp only [Nat.add_assoc, Nat.add_comm 1 k] at hcell
        exact hcell
    · exact (hbelow k (by omega)).trans (by simp [hidx, show i ≠ k by omega])

/-- WRTs from cell `j` up store the codes of their characters and leave the cells below. -/
theorem tell_wrtFrom (cs : Text) {j : ℕ} (h : j + cs.length ≤ 48) (s : State) :
    (∀ k (hk : k < cs.length), (tell s (wrtFrom j cs)).T[j + k] = charCode cs[k]) ∧
      (∀ k (hk : k < j), (tell s (wrtFrom j cs)).T[k] = s.T[k]) := by
  induction cs generalizing j s with
  | nil => exact ⟨fun k hk => absurd hk (Nat.not_lt_zero k), fun _ _ => rfl⟩
  | cons c cs ih =>
    rw [List.length_cons] at h
    have hidx : (BitVec.ofNat 8 j).toNat = j := by rw [BitVec.toNat_ofNat]; omega
    have hlt : (BitVec.ofNat 8 j).toNat < 48 := by omega
    rw [wrtFrom, if_pos (by omega), tell_cons_complete (exec_wrt hlt (charCode c) s) rfl]
    obtain ⟨hcells, hbelow⟩ :=
      ih (j := j + 1) (by omega) ((s.setT ⟨(BitVec.ofNat 8 j).toNat, hlt⟩ (charCode c)).complete .ok)
    refine ⟨fun k hk => ?_, fun k hk => ?_⟩
    · cases k with
      | zero => exact (hbelow j (Nat.lt_succ_self j)).trans (by simp [hidx])
      | succ k =>
        have hcell := hcells k (Nat.lt_of_succ_lt_succ hk)
        simp only [Nat.add_assoc, Nat.add_comm 1 k] at hcell
        exact hcell
    · exact (hbelow k (by omega)).trans (by simp [hidx, show j ≠ k by omega])

/-- After a text of 48 characters is loaded, the text buffer holds their codes and the length register 48. -/
theorem tell_loadText {a : Text} {x : TextCells} (ha : a.length = 48) (hx : x.toList = a.map charCode) (s : State) :
    (tell s (loadText a)).T = x ∧ (tell s (loadText a)).TLEN = 48 := by
  obtain ⟨hcells, -⟩ := tell_wrtFrom a (j := 0) (by omega) s
  rw [loadText, tell_append, ha, tell_cons_complete (exec_wrlen _ _) rfl, tell_nil]
  refine ⟨Vector.ext fun k hk => ?_, rfl⟩
  have hcell := hcells k (by omega)
  simp only [Nat.zero_add] at hcell
  refine hcell.trans ?_
  have hcode := congrArg (·[k]?) hx
  simpa [hk, ha] using hcode.symm

/-! ## The text a host gets and sends (R194 to R196) -/

/-- The string of 48 cells, one character a cell. -/
def cellsText (x : TextCells) : Text := x.toList.map fun b => Char.ofNat b.toNat

/-- The characters of the alphabet are ASCII and none is a colon, so that a cell survives being a character. -/
theorem charCode_b64Char : ∀ v : Sextet,
    charCode (Char.ofNat (b64Char v).toNat) = b64Char v ∧ Char.ofNat (b64Char v).toNat ≠ ':' := by decide +kernel

theorem mem_b64Enc {f : FrameBytes} {b : Byte} (h : b ∈ (b64Enc f).toList) : ∃ v, b = b64Char v := by
  obtain ⟨j, hj, rfl⟩ := List.getElem_of_mem h
  have hj' : j < 48 := by simpa using hj
  exact ⟨_, (Vector.getElem_toList _).trans (b64Enc_get f ⟨j, hj'⟩)⟩

/-- The text of a frame is 48 characters without a colon, and its codes are the cells it was made of. -/
theorem cellsText_b64Enc (f : FrameBytes) :
    (cellsText (b64Enc f)).length = 48 ∧ ':' ∉ cellsText (b64Enc f) ∧
      (b64Enc f).toList = (cellsText (b64Enc f)).map charCode := by
  refine ⟨by simp [cellsText], fun hmem => ?_, ?_⟩
  · obtain ⟨b, hb, hcolon⟩ := List.mem_map.mp hmem
    obtain ⟨v, rfl⟩ := mem_b64Enc hb
    exact (charCode_b64Char v).2 hcolon
  · rw [cellsText, List.map_map]
    refine ((List.map_congr_left fun b hb => ?_).trans (List.map_id _)).symm
    obtain ⟨v, rfl⟩ := mem_b64Enc hb
    exact (charCode_b64Char v).1

theorem readText_reads : ∀ i ∈ readText, isRead i = true ∧ i.wf = true := by
  simp only [readText, List.mem_map, List.mem_range]
  rintro _ ⟨j, hj, rfl⟩
  exact ⟨rfl, decide_eq_true (by rw [BitVec.toNat_ofNat]; omega)⟩

theorem map_readValue_readText (s : State) : readText.map (readValue s) = s.T.toList := by
  apply List.ext_getElem
  · simp [readText]
  · intro j h _
    have hj : j < 48 := by simpa [readText] using h
    have hidx : (BitVec.ofNat 8 j).toNat = j := by rw [BitVec.toNat_ofNat]; omega
    simp [readText, readValue, hidx, hj]

/-- Reading the text buffer back gives its cells as characters. -/
theorem textOnBlock_eq (s : State) : (textOnBlock s).2 = cellsText s.T := by
  have hvalues := (askAll_reads readText_reads s).trans (map_readValue_readText s)
  rw [textOnBlock, cellsText, ← hvalues, List.map_map]
  rfl

/-- ENCODE and reading back give the text of the built frame. -/
theorem text_of_encode (s : State) : (textOnBlock (tell s [.encode])).2 = cellsText (b64Enc (builtFrame s)) := by
  obtain ⟨-, -, hT, -, -, -, hresponses, -⟩ := encodeFrame_fields s
  rw [tell_cons, ask_encode (t := encodeFrame s) rfl hresponses, tell_nil, textOnBlock_eq, hT]

/-! ## The frame of an address (R160, R166, R168) -/

/-- The frame ENCODE is to build for an address and its flags. -/
structure IsFrameOf (raw : RawAddress) (f : AddressFlags) (F : FrameBytes) : Prop where
  checksum : ChecksumOk F
  tag : F[0] = tagOf f.bounceable f.testOnly
  workchain : F[1] = wcToByte raw.workchain
  hash : ∀ k : Fin 32, F[2 + k.val] = raw.hash[k]

/-- There is one such frame. -/
theorem IsFrameOf.unique {raw : RawAddress} {f : AddressFlags} {F G : FrameBytes} (hF : IsFrameOf raw f F)
    (hG : IsFrameOf raw f G) : F = G := by
  refine frame_eq_of_payload_eq hF.checksum hG.checksum (payload_congr fun k hk => ?_)
  obtain ⟨k, hk36⟩ := k
  rcases k with _ | _ | k
  · exact hF.tag.trans hG.tag.symm
  · exact hF.workchain.trans hG.workchain.symm
  · have hk32 : k < 32 := Nat.lt_of_add_lt_add_right (n := 2) hk
    have hbyte : F[2 + k] = G[2 + k] := (hF.hash ⟨k, hk32⟩).trans (hG.hash ⟨k, hk32⟩).symm
    simp only [Nat.add_comm 2 k] at hbyte
    exact hbyte

/-- The frame ENCODE builds is that of the flags in `FLAGS` and the address in `B`. -/
theorem isFrameOf_builtFrame {raw : RawAddress} {f : AddressFlags} {s : State}
    (hFLAGS : s.FLAGS = packFlags f.bounceable f.testOnly) (hwc : s.B[1] = wcToByte raw.workchain)
    (hhash : ∀ k : Fin 32, s.B[2 + k.val] = raw.hash[k]) : IsFrameOf raw f (builtFrame s) where
  checksum := checksumOk_builtFrame s
  tag := by rw [builtFrame_get_zero, hFLAGS, bncOf_packFlags, tstOf_packFlags]
  workchain := (builtFrame_get_middle s (k := 1) (by decide) (by decide)).trans hwc
  hash k :=
    (builtFrame_get_middle s (k := ⟨2 + k.val, by omega⟩) (by dsimp only; omega) (by dsimp only; omega)).trans (hhash k)

theorem exec_wrflags_packFlags (bnc tst : Bool) (s : State) :
    exec (.wrflags (packFlags bnc tst)) s = .next ((s.setFLAGS bnc tst).complete .ok) := by
  cases bnc <;> cases tst <;> rfl

/-- What the host has staged before ENCODE (R194): the flags, the workchain byte and the hash. -/
theorem tell_stageRaw (raw : RawAddress) (f : AddressFlags) (s : State) :
    IsFrameOf raw f (builtFrame (tell s (stageRaw raw f))) := by
  obtain ⟨u, hu, hwc, hFLAGS⟩ : ∃ u, tell s (stageRaw raw f) = tell u (wrbFrom 2 raw.hash.toList) ∧
      u.B[1] = wcToByte raw.workchain ∧ u.FLAGS = packFlags f.bounceable f.testOnly :=
    ⟨_, (tell_cons_complete (exec_wrflags_packFlags _ _ s) rfl _).trans
      (tell_cons_complete (exec_wrb (by decide) _ _) rfl _), by simp, rfl⟩
  obtain ⟨hcells, hbelow, hflags⟩ := tell_wrbFrom raw.hash.toList (i := 2) (by simp) u
  rw [hu]
  refine isFrameOf_builtFrame (hflags.trans hFLAGS) ((hbelow 1 (by decide)).trans hwc) fun k => ?_
  simpa using hcells k.val (by simp)

/-- The text of an address does not depend on what the block held before. -/
theorem encodeRaw_text (raw : RawAddress) (f : AddressFlags) (s : State) :
    ∃ F, IsFrameOf raw f F ∧ (encodeRaw raw f s).2 = cellsText (b64Enc F) :=
  ⟨_, tell_stageRaw raw f s, by rw [encodeRaw, tell_append, text_of_encode]⟩

/-! ## DECODE on the block (R195) -/

/-- Loading a text and DECODE: the state DECODE leaves and the status it responds. -/
theorem decodeOnBlock_eq {a : Text} {s t : State} {e : Status} {d : Byte}
    (hexec : exec .decode (tell s (loadText a)) = .next t)
    (hr : t.responses = (tell s (loadText a)).responses ++ [responseWord e d]) : decodeOnBlock a s = (t, e.code) := by
  rw [decodeOnBlock, ask_encode hexec hr, responseStatus_responseWord]

theorem textFrame_loadText {a : Text} {x : TextCells} (ha : a.length = 48) (hx : x.toList = a.map charCode)
    (s : State) : textFrame (tell s (loadText a)) = b64Dec x := by
  obtain ⟨hT, hTLEN⟩ := tell_loadText ha hx s
  rw [textFrame_of_TLEN_eq hTLEN, hT]

section
variable {a : Text} {x : TextCells} (ha : a.length = 48) (hx : x.toList = a.map charCode) (s : State)
include ha hx

theorem decodeOnBlock_of_no_frame (h : b64Dec x = none) : ∃ t, decodeOnBlock a s = (t, Status.errFormat.code) :=
  ⟨_, decodeOnBlock_eq (exec_decode_of_no_frame ((textFrame_loadText ha hx s).trans h)) rfl⟩

theorem decodeOnBlock_of_bad_checksum {f : FrameBytes} (h : b64Dec x = some f) (hc : ¬ ChecksumOk f) :
    ∃ t, decodeOnBlock a s = (t, Status.errChecksum.code) :=
  ⟨_, decodeOnBlock_eq (exec_decode_of_bad_checksum ((textFrame_loadText ha hx s).trans h) hc) rfl⟩

theorem decodeOnBlock_of_unknown_tag {f : FrameBytes} (h : b64Dec x = some f) (hc : ChecksumOk f)
    (ht : flagsOf f[0] = none) : ∃ t, decodeOnBlock a s = (t, Status.errTag.code) :=
  ⟨_, decodeOnBlock_eq (exec_decode_of_unknown_tag ((textFrame_loadText ha hx s).trans h) hc ht) rfl⟩

theorem decodeOnBlock_of_frame {f : FrameBytes} {bnc tst : Bool} (h : b64Dec x = some f) (hc : ChecksumOk f)
    (ht : flagsOf f[0] = some (bnc, tst)) :
    ∃ t, decodeOnBlock a s = (t, Status.ok.code) ∧ t.B = f ∧ t.FLAGS = packFlags bnc tst := by
  obtain ⟨t, hexec, hB, -, hFLAGS, -, -, -, hresponses, -⟩ :=
    exec_decode_of_frame ((textFrame_loadText ha hx s).trans h) hc ht
  exact ⟨t, decodeOnBlock_eq (e := .ok) (d := 0x00) hexec hresponses, hB, hFLAGS⟩

end

/-- The text of an address decodes on the block to its frame. -/
theorem decodeOnBlock_of_isFrameOf {raw : RawAddress} {f : AddressFlags} {F : FrameBytes} (h : IsFrameOf raw f F)
    (s : State) : ∃ t, decodeOnBlock (cellsText (b64Enc F)) s = (t, Status.ok.code) ∧ t.B = F ∧
      t.FLAGS = packFlags f.bounceable f.testOnly := by
  obtain ⟨hlen, -, hcells⟩ := cellsText_b64Enc F
  exact decodeOnBlock_of_frame hlen hcells s (b64Dec_b64Enc F) h.checksum (by rw [h.tag, flagsOf_tagOf])

/-! Reading the address back (R195 step 4). -/

/-- The reads of the 32 hash bytes. -/
theorem hashReads_reads : ∀ i ∈ (List.range 32).map fun k => Instr.rdb (BitVec.ofNat 8 (2 + k)),
    isRead i = true ∧ i.wf = true := by
  simp only [List.mem_map, List.mem_range]
  rintro _ ⟨k, hk, rfl⟩
  exact ⟨rfl, decide_eq_true (by rw [BitVec.toNat_ofNat]; omega)⟩

theorem hash_of_reads (s : State) (k : Fin 32) :
    responseData ((askAll s ((List.range 32).map fun k => Instr.rdb (BitVec.ofNat 8 (2 + k)))).2.getD k.val 0) =
      s.B[2 + k.val] := by
  have hidx : (BitVec.ofNat 8 (2 + k.val)).toNat = 2 + k.val := by rw [BitVec.toNat_ofNat]; omega
  have hread : readValue s (.rdb (BitVec.ofNat 8 (2 + k.val))) = s.B[2 + k.val] := by
    simp [readValue, hidx, show 2 + k.val < 36 by omega]
  rw [← List.getD_map (f := responseData), askAll_reads hashReads_reads s, ← hread]
  simp

theorem readAddress_eq (s : State) : (readAddress s).2 =
    (⟨byteToWc s.B[1], Vector.ofFn fun k : Fin 32 => s.B[2 + k.val]⟩, ⟨bncOf s.getFLAGS, tstOf s.getFLAGS⟩) := by
  have hwc (t : State) : readValue t (.rdb 1) = t.B[1] := readValue_rdb t (by decide)
  simp only [readAddress, ask_read (i := .rdflags) rfl rfl, ask_read (i := .rdb 1) rfl rfl, hash_of_reads,
    responseData_append, hwc]
  rfl

/-- A register that two flags were packed into reads as it is (R24). -/
theorem getFLAGS_of_packFlags {s : State} {bnc tst : Bool} (h : s.FLAGS = packFlags bnc tst) :
    s.getFLAGS = packFlags bnc tst := by
  rw [State.getFLAGS_eq, h]
  cases bnc <;> cases tst <;> rfl

/-- Reading back after a DECODE of an address's frame gives the address and its flags. -/
theorem readAddress_of_isFrameOf {raw : RawAddress} {f : AddressFlags} {s : State} (h : IsFrameOf raw f s.B)
    (hFLAGS : s.FLAGS = packFlags f.bounceable f.testOnly) (hrange : workchainInRange raw.workchain = true) :
    (readAddress s).2 = (raw, f) := by
  obtain ⟨hlo, hhi⟩ : -128 ≤ raw.workchain ∧ raw.workchain ≤ 127 := of_decide_eq_true hrange
  have hflags := getFLAGS_of_packFlags hFLAGS
  have hhash : (Vector.ofFn fun k : Fin 32 => s.B[2 + k.val]) = raw.hash :=
    Vector.ext fun k hk => (Vector.getElem_ofFn hk).trans (h.hash ⟨k, hk⟩)
  rw [readAddress_eq, hflags, hhash, h.workchain, byteToWc_wcToByte hlo hhi, bncOf_packFlags, tstOf_packFlags]

/-! The two ends of the procedures. -/

theorem decodeAddress_of_ok {a : Text} {s t : State} (h : decodeOnBlock a s = (t, Status.ok.code)) :
    (decodeAddress a s).2 = .ok (readAddress t).2 := by
  simp [decodeAddress, h]

theorem isUserFriendly_iff (a : Text) : isUserFriendly a = true ↔ a.length = 48 ∧ ':' ∉ a := by
  simp [isUserFriendly]

theorem normalize_of_error {a : Text} {s t : State} {e : Status} (ha : isUserFriendly a = true)
    (h : decodeOnBlock a s = (t, e.code)) (he : e ≠ .ok) (target : Bool) :
    (normalize a target s).2 = .error (errorOf e.code) := by
  have hne : e.code ≠ Status.ok.code := Status.code_ne_zero he
  simp only [normalize, ha, if_true, h, if_neg hne]

/-- An error of `decode` is passed on as it is. -/
theorem normalize_of_decodeAddress_error {a : Text} {s : State} {e : HostError} (ha : isUserFriendly a = true)
    (h : (decodeAddress a s).2 = .error e) (target : Bool) : (normalize a target s).2 = .error e := by
  by_cases hok : (decodeOnBlock a s).2 = Status.ok.code
  · simp only [decodeAddress, if_pos hok] at h
    cases h
  · simp only [decodeAddress, if_neg hok] at h
    simp only [normalize, ha, if_true, if_neg hok]
    rw [Except.error.inj h]

/-- A user-friendly text that decodes is encoded again with the bounceable flag replaced. -/
theorem normalize_of_ok {a : Text} {s t : State} (ha : isUserFriendly a = true)
    (h : decodeOnBlock a s = (t, Status.ok.code)) (target : Bool) :
    ∃ u, (normalize a target s).2 = .ok (cellsText (b64Enc (builtFrame u))) ∧ u.B = t.B ∧
      u.FLAGS = packFlags target (tstOf t.getFLAGS) := by
  have hread : ask t (encode .rdflags) = (t.answer t.getFLAGS, 0x00#8 ++ t.getFLAGS) := ask_read rfl rfl t
  refine ⟨((t.answer t.getFLAGS).setFLAGS target (tstOf t.getFLAGS)).complete .ok, ?_, rfl, rfl⟩
  simp only [normalize, ha, if_true, h, hread, responseData_append]
  rw [tell_cons_complete (exec_wrflags_packFlags _ _ _) rfl, text_of_encode]

/-! ## The obligations -/

/-- Settles O57: CRCINIT clears the register, the bytes are folded into it and the two reads give its halves. -/
theorem checksumProcedureComputesCrc16 : Obligations.ChecksumProcedureComputesCrc16 := by
  unfold Obligations.ChecksumProcedureComputesCrc16
  intro bs s
  obtain ⟨hvalue, hsame, hin⟩ := checksumOnBlock_eq bs s
  rw [tell_cons_complete (exec_crcinit s) rfl] at hvalue hsame hin
  obtain ⟨hbytes, hinBytes⟩ := tell_crcbyte bs (s := (s.setCRC 0x0000).complete .ok) rfl
  obtain ⟨hB, hT, hTLEN, hFLAGS, hCRC, hSTATUS⟩ := hbytes
  obtain ⟨hB', hT', hTLEN', hFLAGS', hCRC', hSTATUS'⟩ := hsame
  exact ⟨hvalue.trans hCRC, hCRC'.trans hCRC, hB'.trans hB, hT'.trans hT, hTLEN'.trans hTLEN, hFLAGS'.trans hFLAGS,
    hSTATUS'.trans hSTATUS, hin.trans hinBytes⟩

/-- Settles O58: the text is that of the address's one frame, which DECODE finds in it. -/
theorem hostDecodeInvertsHostEncode : Obligations.HostDecodeInvertsHostEncode := by
  unfold Obligations.HostDecodeInvertsHostEncode
  intro raw f s u hrange
  obtain ⟨F, hF, htext⟩ := encodeRaw_text raw f s
  obtain ⟨hlen, hcolon, -⟩ := cellsText_b64Enc F
  obtain ⟨t, hdecode, hB, hFLAGS⟩ := decodeOnBlock_of_isFrameOf hF u
  rw [htext, decodeAddress_of_ok hdecode, readAddress_of_isFrameOf (hB.symm ▸ hF) hFLAGS hrange]
  exact ⟨hlen, hcolon, rfl⟩

/-- Settles O59: the frame encoded again has the same address and test-only flag, so its text is the one `encode` gives;
an error of DECODE is answered as `decode` answers it. -/
theorem normalizeReplacesBounceableOnly : Obligations.NormalizeReplacesBounceableOnly := by
  unfold Obligations.NormalizeReplacesBounceableOnly
  refine ⟨fun raw f target s u v _ => ?_, fun a x target s hlen hcolon hx => ?_, fun a target s hform => ?_⟩
  · obtain ⟨F, hF, htext⟩ := encodeRaw_text raw f s
    obtain ⟨G, hG, htext'⟩ := encodeRaw_text raw ⟨target, f.testOnly⟩ v
    obtain ⟨hlen, hcolon, -⟩ := cellsText_b64Enc F
    obtain ⟨t, hdecode, hB, hFLAGS⟩ := decodeOnBlock_of_isFrameOf hF u
    obtain ⟨w, hnormalize, hwB, hwFLAGS⟩ := normalize_of_ok ((isUserFriendly_iff _).mpr ⟨hlen, hcolon⟩) hdecode target
    rw [getFLAGS_of_packFlags hFLAGS, tstOf_packFlags] at hwFLAGS
    have hbuilt : IsFrameOf raw ⟨target, f.testOnly⟩ (builtFrame w) := by
      refine isFrameOf_builtFrame hwFLAGS ?_ fun k => ?_
      · simpa only [hwB, hB] using hF.workchain
      · simpa only [hwB, hB] using hF.hash k
    rw [htext, hnormalize, htext', hbuilt.unique hG]
  · have huser : isUserFriendly a = true := (isUserFriendly_iff a).mpr ⟨hlen, hcolon⟩
    refine ⟨fun hnone => ?_, fun f hf hbad => ?_, fun f hf hok htag => ?_, fun e herr => ?_⟩
    · obtain ⟨t, hdecode⟩ := decodeOnBlock_of_no_frame hlen hx s hnone
      exact normalize_of_error huser hdecode (by decide) target
    · obtain ⟨t, hdecode⟩ := decodeOnBlock_of_bad_checksum hlen hx s hf hbad
      exact normalize_of_error huser hdecode (by decide) target
    · obtain ⟨t, hdecode⟩ := decodeOnBlock_of_unknown_tag hlen hx s hf hok htag
      exact normalize_of_error huser hdecode (by decide) target
    · exact normalize_of_decodeAddress_error huser herr target
  · rw [normalize, if_neg (mt (isUserFriendly_iff a).mp hform)]

end Sys2Proof.Machine

namespace Sys2Proof.Machine

/-! ## The raw text of an address (R191 to R193, R200) -/

/-- The workchain segment as printed (R200). -/
def workchainText (w : Int) : Text := (if w < 0 then ['-'] else []) ++ Nat.toDigits 10 w.natAbs

/-- The hash segment as printed (R200). -/
def hashText (bs : List Byte) : Text := bs.flatMap (hexByte lowerHex)

theorem rawText_eq (raw : RawAddress) : rawText raw = workchainText raw.workchain ++ ':' :: hashText raw.hash.toList :=
  rfl

/-- Each of the 256 workchains in range is printed without a colon and read back. -/
theorem parseWorkchain_workchainText : ∀ w : Int, -128 ≤ w → w ≤ 127 →
    parseWorkchain (workchainText w) = some w ∧ ':' ∉ workchainText w := by decide +kernel

/-- The sixteen digits are read back, and none is a colon (R193). -/
theorem hexValue_hexDigit : ∀ n < 16, hexValue (hexDigit lowerHex n) = some n ∧ hexDigit lowerHex n ≠ ':' := by
  decide

/-- The characters of a hash segment are hexadecimal digits. -/
theorem mem_hashText {bs : List Byte} {c : Char} (h : c ∈ hashText bs) : ∃ n < 16, c = hexDigit lowerHex n := by
  obtain ⟨b, -, hc⟩ := List.mem_flatMap.mp h
  have hb := b.isLt
  simp only [hexByte, List.mem_cons, List.not_mem_nil, or_false] at hc
  rcases hc with rfl | rfl
  · exact ⟨b.toNat / 16, by omega, rfl⟩
  · exact ⟨b.toNat % 16, by omega, rfl⟩

theorem length_hashText (bs : List Byte) : (hashText bs).length = 2 * bs.length := by
  induction bs with
  | nil => rfl
  | cons b bs ih =>
    rw [hashText, List.flatMap_cons, List.length_append, ← hashText, ih, List.length_cons, Nat.mul_succ, Nat.add_comm]
    rfl

/-- Two characters a byte, high nibble first. -/
theorem getD_hashText (bs : List Byte) {k : ℕ} (hk : k < bs.length) :
    (hashText bs).getD (2 * k) '0' = hexDigit lowerHex (bs[k].toNat / 16) ∧
      (hashText bs).getD (2 * k + 1) '0' = hexDigit lowerHex (bs[k].toNat % 16) := by
  induction bs generalizing k with
  | nil => exact absurd hk (Nat.not_lt_zero k)
  | cons b bs ih =>
    cases k with
    | zero => exact ⟨rfl, rfl⟩
    | succ k => exact ih (Nat.lt_of_succ_lt_succ hk)

/-- A byte is its two nibbles. -/
theorem ofNat_nibbles (b : Byte) : BitVec.ofNat 8 (16 * (b.toNat / 16) + b.toNat % 16) = b := by
  rw [Nat.div_add_mod, BitVec.ofNat_toNat, BitVec.setWidth_eq]

/-- The printed hash is read back. -/
theorem parseHash_hashText (h : Vector Byte 32) : parseHash (hashText h.toList) = some h := by
  have hlen : (hashText h.toList).length = 64 := by rw [length_hashText, Vector.length_toList]
  have hhex : (hashText h.toList).all (fun c => (hexValue c).isSome) = true := by
    rw [List.all_eq_true]
    intro c hc
    obtain ⟨n, hn, rfl⟩ := mem_hashText hc
    rw [(hexValue_hexDigit n hn).1]
    rfl
  rw [parseHash, if_pos ⟨hlen, hhex⟩]
  refine congrArg some (Vector.ext fun k hk => (Vector.getElem_ofFn hk).trans ?_)
  obtain ⟨hhigh, hlow⟩ := getD_hashText h.toList (k := k) (by simpa using hk)
  have hb := h[k].isLt
  simp only [hhigh, hlow, Vector.getElem_toList, (hexValue_hexDigit (h[k].toNat / 16) (by omega)).1,
    (hexValue_hexDigit (h[k].toNat % 16) (by omega)).1, Option.getD_some, ofNat_nibbles]

/-- Two segments without a colon, and one between them, are taken apart at it. -/
theorem toRaw_of_segments {a b : Text} (ha : ':' ∉ a) (hb : ':' ∉ b) {w : Int} {h : Vector Byte 32}
    (hw : parseWorkchain a = some w) (hh : parseHash b = some h) : toRaw (a ++ ':' :: b) = .ok ⟨w, h⟩ := by
  have hcount : (a ++ ':' :: b).count ':' = 1 := by
    rw [List.count_append, List.count_cons_self, List.count_eq_zero.mpr ha, List.count_eq_zero.mpr hb]
  have hpos : ∀ c ∈ a, (c != ':') = true := fun c hc => bne_iff_ne.mpr fun heq => ha (heq ▸ hc)
  have htake : (a ++ ':' :: b).takeWhile (· != ':') = a := by
    rw [List.takeWhile_append_of_pos hpos]
    simp
  have hdrop : (a ++ ':' :: b).dropWhile (· != ':') = ':' :: b := by
    rw [List.dropWhile_append_of_pos hpos]
    simp
  rw [toRaw, if_pos hcount, htake, hdrop, List.drop_one, List.tail_cons, hw, hh]

/-! ## The obligation -/

/-- Settles O60: the two printed segments have no colon, and each is read back. -/
theorem rawTextRoundTrips : Obligations.RawTextRoundTrips := by
  unfold Obligations.RawTextRoundTrips
  intro raw hrange
  obtain ⟨hlo, hhi⟩ : -128 ≤ raw.workchain ∧ raw.workchain ≤ 127 := of_decide_eq_true hrange
  obtain ⟨hparse, hcolon⟩ := parseWorkchain_workchainText raw.workchain hlo hhi
  have hhash : ':' ∉ hashText raw.hash.toList := fun hmem => by
    obtain ⟨n, hn, heq⟩ := mem_hashText hmem
    exact (hexValue_hexDigit n hn).2 heq.symm
  rw [rawText_eq]
  exact toRaw_of_segments hcolon hhash hparse (parseHash_hashText raw.hash)

end Sys2Proof.Machine
